-- ==== Sys2Proof/Word.lean ====
section
/-! DEFINITION. The word types of the machine and their plainest arithmetic (spec 00_scope.md R7, R8, R18). -/

namespace Sys2Proof

/-- The cell of an integer register or of `pc`: an XLEN-bit value, zero-extended to 64 bits when XLEN = 32
(log 26). -/
abbrev Word := BitVec 64

/-- The cell of a floating-point register: an FLEN-bit pattern, zero-extended to 128 bits when FLEN < 128 (log 26). -/
abbrev FWord := BitVec 128

/-- One byte of memory (R18). -/
abbrev Byte := BitVec 8

/-- A 5-bit register number field (`rd`, `rs1`, `rs2`, `rs3`). -/
abbrev Reg := BitVec 5

/-- A 3-bit compressed register field, naming register `8 + r` (30_encoding.md R186). -/
abbrev CReg := BitVec 3

/-- The full number of a compressed register field (R186). -/
def CReg.full (r : CReg) : Reg := 0b01#2 ++ r

end Sys2Proof
end

