-- ==== Sys2Proof/Config.lean ====
section
/-! DEFINITION. What is constant in a run (spec 00_scope.md R5, R6): base ISA, extensions and the parameters of the
execution environment (92_eei_decisions.md), as plain data; and the free values, constants without a body. -/

namespace Sys2Proof

/-- `BASE` (R5). RV128I is not admitted (R4, 92_eei_decisions.md D1). -/
inductive Base where
  | rv32i
  | rv32e
  | rv64i
deriving DecidableEq, Repr

/-- `EXT` (R5): which extensions are present. -/
structure Extensions where
  m : Bool
  zmmul : Bool
  a : Bool
  f : Bool
  d : Bool
  q : Bool
  c : Bool
  zicsr : Bool
  zifencei : Bool
  zihintpause : Bool
  counters : Bool
  zam : Bool
  ztso : Bool
deriving DecidableEq, Repr

/-- `ENDIAN`: the byte order of data accesses (20_memory.md R66). -/
inductive Endian where
  | little
  | big
deriving DecidableEq, Repr

/-- `MISALIGNED`: what a misaligned load or store does (20_memory.md R68). -/
inductive Misaligned where
  | complete
  | addressMisaligned
  | accessFault
deriving DecidableEq, Repr

/-- One exception to the default `MISALIGNED`: accesses of `width` bytes whose address lies in
`[base, base + size)` (R68: it may depend on the address, the width and the region). -/
structure MisalignedRule where
  base : Nat
  size : Nat
  width : Nat
  effect : Misaligned
deriving DecidableEq, Repr

/-- What an address range holds (20_memory.md R61). An address in no region is vacant. -/
inductive RegionKind where
  | main
  | io
deriving DecidableEq, Repr

/-- One range of `MEMMAP` with what each access kind may touch (R61, R70). -/
structure Region where
  base : Nat
  size : Nat
  kind : RegionKind
  fetch : Bool
  read : Bool
  write : Bool
  /-- whether LR, SC and AMO may access it (93_implementation_defined.md U35; log 20) -/
  atomic : Bool
  /-- the permitted access widths in bytes -/
  widths : List Nat
  /-- the LR/SC eventuality property (44_a.md R345, R346) -/
  eventual : Bool
deriving DecidableEq, Repr

/-- The addresses `base` to `base + size - 1`, modulo 2^XLEN. -/
structure Span where
  base : Nat
  size : Nat
deriving DecidableEq, Repr

/-- One row of a table of reservation sets: an LR of `width` bytes at an address in `[base, base + size)` reserves the
spans of `extra` with the bytes it reads (44_a.md R333). -/
structure ReservationRule where
  base : Nat
  size : Nat
  width : Nat
  extra : List Span
deriving DecidableEq, Repr

/-- `RESERVATION_SET` (44_a.md R333), any set that holds the bytes read: exactly those; with the naturally aligned block
of `2 ^ log2Bytes` bytes around them; or with all spans that a table lists for the address and the width (log 17). -/
inductive ReservationShape where
  | exact
  | block (log2Bytes : Nat)
  | table (rules : List ReservationRule)
deriving DecidableEq, Repr

/-- One entry of `MISALIGNED_ATOMIC_GRANULE` (21_memory_model.md R126): the addresses `base` to `base + size - 1`,
modulo 2^XLEN, divided from `base` on into granules of `bytes` bytes (log 29). -/
structure AtomicGranule where
  base : Nat
  size : Nat
  bytes : Nat
deriving DecidableEq, Repr

/-- `SC_MAY_FAIL` (44_a.md R334). -/
inductive ScPolicy where
  | never
  | oracle
deriving DecidableEq, Repr

/-- The nine causes of a trap (60_exceptions.md R608). -/
inductive Cause where
  | instructionAddressMisaligned
  | instructionAccessFault
  | illegalInstruction
  | breakpoint
  | loadAddressMisaligned
  | loadAccessFault
  | storeAddressMisaligned
  | storeAccessFault
  | environmentCall
deriving DecidableEq, Repr

/-- The function `f` of `resume(f)` (60_exceptions.md R605, R607): continue after the instruction, retry it, or
serve the trap by an unconstrained function of the environment (log 11). -/
inductive Resume where
  | skip
  | retry
  | service
deriving DecidableEq, Repr

/-- The parameters of the model (R5; 92_eei_decisions.md, "Parameters at a glance"). -/
structure Config where
  base : Base
  ext : Extensions
  endian : Endian
  misaligned : Misaligned
  misalignedRules : List MisalignedRule
  /-- `MISALIGNED_ATOMIC_GRANULE` (R5), which matters with Zam alone: none where the list is empty -/
  atomicGranules : List AtomicGranule
  memmap : List Region
  reservationSet : ReservationShape
  scMayFail : ScPolicy
  /-- `SC_FAIL_CODE`: what a failed SC writes to `x[rd]`, not zero (44_a.md R341; 93_implementation_defined.md U54; log
  35) -/
  scFailCode : Word
  /-- `TRAP_POLICY`: a cause that is not listed halts the hart (R605) -/
  trapPolicy : List (Cause × Resume)
  /-- which of hpmcounter3 .. hpmcounter31 are implemented (10_state.md R43) -/
  hpmcounters : List Nat
deriving DecidableEq, Repr

namespace Config

/-- XLEN is 32 (R5: forced by `BASE`). -/
def is32 (c : Config) : Bool :=
  match c.base with
  | .rv32i => true
  | .rv32e => true
  | .rv64i => false

/-- XLEN (R5). -/
def xlen (c : Config) : Nat := if c.is32 then 32 else 64

/-- FLEN: the width of the widest floating-point extension present (R5); 32 also where F is absent, when no
instruction reaches an `f` register. -/
def flen (c : Config) : Nat :=
  if c.ext.q then 128 else if c.ext.d then 64 else 32

/-- IALIGN in bytes (R5). -/
def ialignBytes (c : Config) : Nat := if c.ext.c then 2 else 4

/-- The legal extension sets (R5: D needs F; Q needs D; F needs Zicsr; Counters need Zicsr; Zam needs A; M includes
Zmmul), and an `SC_FAIL_CODE` that is not zero in XLEN bits (44_a.md R341; 92_eei_decisions.md D12; log 35). -/
def legal (c : Config) : Bool :=
  (!c.ext.d || c.ext.f) && (!c.ext.q || c.ext.d) && (!c.ext.f || c.ext.zicsr) &&
  (!c.ext.counters || c.ext.zicsr) && (!c.ext.zam || c.ext.a) && (!c.ext.m || c.ext.zmmul) &&
  c.scFailCode.toNat % 2 ^ c.xlen != 0

/-- `RESET_PC` of the model's reset state (log 2). -/
def resetPc : Word := 0x80000000#64

/-- The RAM of the model's reset state: every width, every access kind, the eventuality property (20_memory.md R75;
44_a.md R346; log 2). -/
def ram : Region :=
  { base := 0x80000000, size := 0x10000, kind := .main, fetch := true, read := true, write := true,
    atomic := true, widths := [1, 2, 4, 8, 16], eventual := true }

/-- The configuration of the model's reset state: RV64I with every extension but Zam and Ztso, and the spec's default
for every parameter that has one (92_eei_decisions.md; log 1). -/
def reset : Config :=
  { base := .rv64i
    ext :=
      { m := true, zmmul := true, a := true, f := true, d := true, q := true, c := true, zicsr := true,
        zifencei := true, zihintpause := true, counters := true, zam := false, ztso := false }
    endian := .little
    misaligned := .addressMisaligned
    misalignedRules := []
    atomicGranules := []
    memmap := [ram]
    reservationSet := .exact
    scMayFail := .never
    scFailCode := 1#64
    trapPolicy := []
    hpmcounters := [] }

/-! Free values: each is read at the model's draw counter, so that every draw is its own value. -/

/-- How far `cycle` advances before draw `n`: less than 2^63, so that reads are non-decreasing modulo the 64-bit wrap
(45_zicsr_counters.md R390; log 13). -/
opaque cycleAdvance (n : Nat) : BitVec 63

/-- How far `time` advances before draw `n`, bounded as `cycleAdvance` (R390; log 13). -/
opaque timeAdvance (n : Nat) : BitVec 63

/-- Which candidate a stale fetch returns at draw `n` (20_memory.md R78; log 15). -/
opaque fetchChoice (n : Nat) : Nat

/-- Whether the environment fails the SC of draw `n`, where it may (44_a.md R334; log 16). -/
opaque scFails (n : Nat) : Bool

/-- How many further SCs of the constrained loop entered at draw `n` the environment may fail after the first (44_a.md
R346; log 16). -/
opaque scPatience (n : Nat) : Nat

/-- What an I/O location supplies to the memory operation of draw `n`: bits `8 * i` up for byte `i` of the access
(60_exceptions.md R627; log 18). -/
opaque ioValue (n : Nat) : BitVec 128

/-- To which of the component operations of the access of draw `n` its byte `i` belongs, where the access may be
decomposed; the operations are made in rising order (20_memory.md R72; log 18). -/
opaque component (n i : Nat) : Nat

end Config

end Sys2Proof
end

