-- ==== Sys2Proof/Syntax.lean ====
section
/-! DEFINITION. The instructions: one constructor per row of spec/opcode_table.json (SLLI, SRLI and SRAI have a row for
RV32 and one for RV64 and are one constructor each, with the 6-bit shift amount of RV64).

Operands hold the bits of the encoding's fields, in the immediate's own bit order. An immediate whose low bits are
implied zeros holds the bits above them: `offset` of a branch or jump is offset[..:1], `imm` of LUI and AUIPC is
imm[31:12], `imm` of a compressed load or store is the offset divided by the access size. -/

namespace Sys2Proof

inductive Instr where
  /- RV32I (40_rv32i_integer.md, 41_rv32i_control_memory_system.md) -/
  /-- `LUI` (40_rv32i_integer.md R201) -/
  | lui (rd : Reg) (imm : BitVec 20)
  /-- `AUIPC` (40_rv32i_integer.md R202) -/
  | auipc (rd : Reg) (imm : BitVec 20)
  /-- `ADDI` (40_rv32i_integer.md R203) -/
  | addi (rd rs1 : Reg) (imm : BitVec 12)
  /-- `SLTI` (40_rv32i_integer.md R204) -/
  | slti (rd rs1 : Reg) (imm : BitVec 12)
  /-- `SLTIU` (40_rv32i_integer.md R205) -/
  | sltiu (rd rs1 : Reg) (imm : BitVec 12)
  /-- `XORI` (40_rv32i_integer.md R206) -/
  | xori (rd rs1 : Reg) (imm : BitVec 12)
  /-- `ORI` (40_rv32i_integer.md R208) -/
  | ori (rd rs1 : Reg) (imm : BitVec 12)
  /-- `ANDI` (40_rv32i_integer.md R209) -/
  | andi (rd rs1 : Reg) (imm : BitVec 12)
  /-- `SLLI` (40_rv32i_integer.md R210) -/
  | slli (rd rs1 : Reg) (shamt : BitVec 6)
  /-- `SRLI` (40_rv32i_integer.md R211) -/
  | srli (rd rs1 : Reg) (shamt : BitVec 6)
  /-- `SRAI` (40_rv32i_integer.md R212) -/
  | srai (rd rs1 : Reg) (shamt : BitVec 6)
  /-- `ADD` (40_rv32i_integer.md R213) -/
  | add (rd rs1 rs2 : Reg)
  /-- `SUB` (40_rv32i_integer.md R214) -/
  | sub (rd rs1 rs2 : Reg)
  /-- `SLL` (40_rv32i_integer.md R215) -/
  | sll (rd rs1 rs2 : Reg)
  /-- `SLT` (40_rv32i_integer.md R216) -/
  | slt (rd rs1 rs2 : Reg)
  /-- `SLTU` (40_rv32i_integer.md R217) -/
  | sltu (rd rs1 rs2 : Reg)
  /-- `XOR` (40_rv32i_integer.md R218) -/
  | xor (rd rs1 rs2 : Reg)
  /-- `SRL` (40_rv32i_integer.md R219) -/
  | srl (rd rs1 rs2 : Reg)
  /-- `SRA` (40_rv32i_integer.md R220) -/
  | sra (rd rs1 rs2 : Reg)
  /-- `OR` (40_rv32i_integer.md R221) -/
  | or (rd rs1 rs2 : Reg)
  /-- `AND` (40_rv32i_integer.md R222) -/
  | and (rd rs1 rs2 : Reg)
  /-- `JAL` (41_rv32i_control_memory_system.md R232) -/
  | jal (rd : Reg) (offset : BitVec 20)
  /-- `JALR` (41_rv32i_control_memory_system.md R234) -/
  | jalr (rd rs1 : Reg) (imm : BitVec 12)
  /-- `BEQ` (41_rv32i_control_memory_system.md R236) -/
  | beq (rs1 rs2 : Reg) (offset : BitVec 12)
  /-- `BNE` (41_rv32i_control_memory_system.md R237) -/
  | bne (rs1 rs2 : Reg) (offset : BitVec 12)
  /-- `BLT` (41_rv32i_control_memory_system.md R238) -/
  | blt (rs1 rs2 : Reg) (offset : BitVec 12)
  /-- `BGE` (41_rv32i_control_memory_system.md R239) -/
  | bge (rs1 rs2 : Reg) (offset : BitVec 12)
  /-- `BLTU` (41_rv32i_control_memory_system.md R240) -/
  | bltu (rs1 rs2 : Reg) (offset : BitVec 12)
  /-- `BGEU` (41_rv32i_control_memory_system.md R241) -/
  | bgeu (rs1 rs2 : Reg) (offset : BitVec 12)
  /-- `LB` (41_rv32i_control_memory_system.md R243) -/
  | lb (rd rs1 : Reg) (imm : BitVec 12)
  /-- `LH` (41_rv32i_control_memory_system.md R244) -/
  | lh (rd rs1 : Reg) (imm : BitVec 12)
  /-- `LW` (41_rv32i_control_memory_system.md R245) -/
  | lw (rd rs1 : Reg) (imm : BitVec 12)
  /-- `LBU` (41_rv32i_control_memory_system.md R246) -/
  | lbu (rd rs1 : Reg) (imm : BitVec 12)
  /-- `LHU` (41_rv32i_control_memory_system.md R247) -/
  | lhu (rd rs1 : Reg) (imm : BitVec 12)
  /-- `SB` (41_rv32i_control_memory_system.md R249) -/
  | sb (rs1 rs2 : Reg) (imm : BitVec 12)
  /-- `SH` (41_rv32i_control_memory_system.md R250) -/
  | sh (rs1 rs2 : Reg) (imm : BitVec 12)
  /-- `SW` (41_rv32i_control_memory_system.md R251) -/
  | sw (rs1 rs2 : Reg) (imm : BitVec 12)
  /-- `FENCE` (41_rv32i_control_memory_system.md R255) -/
  | fence (fm pred succ : BitVec 4) (rs1 rd : Reg)
  /-- `FENCE.TSO` (41_rv32i_control_memory_system.md R256) -/
  | fenceTso
  /-- `PAUSE` (41_rv32i_control_memory_system.md R262) -/
  | pause
  /-- `FENCE.I` (41_rv32i_control_memory_system.md R260) -/
  | fenceI (imm : BitVec 12) (rs1 rd : Reg)
  /-- `ECALL` (41_rv32i_control_memory_system.md R257) -/
  | ecall
  /-- `EBREAK` (41_rv32i_control_memory_system.md R258) -/
  | ebreak
  /- RV64I (42_rv32e_rv64i_rv128i.md) -/
  /-- `LWU` (42_rv32e_rv64i_rv128i.md R288) -/
  | lwu (rd rs1 : Reg) (imm : BitVec 12)
  /-- `LD` (42_rv32e_rv64i_rv128i.md R289) -/
  | ld (rd rs1 : Reg) (imm : BitVec 12)
  /-- `SD` (42_rv32e_rv64i_rv128i.md R290) -/
  | sd (rs1 rs2 : Reg) (imm : BitVec 12)
  /-- `ADDIW` (42_rv32e_rv64i_rv128i.md R278) -/
  | addiw (rd rs1 : Reg) (imm : BitVec 12)
  /-- `SLLIW` (42_rv32e_rv64i_rv128i.md R279) -/
  | slliw (rd rs1 : Reg) (shamt : BitVec 5)
  /-- `SRLIW` (42_rv32e_rv64i_rv128i.md R280) -/
  | srliw (rd rs1 : Reg) (shamt : BitVec 5)
  /-- `SRAIW` (42_rv32e_rv64i_rv128i.md R281) -/
  | sraiw (rd rs1 : Reg) (shamt : BitVec 5)
  /-- `ADDW` (42_rv32e_rv64i_rv128i.md R282) -/
  | addw (rd rs1 rs2 : Reg)
  /-- `SUBW` (42_rv32e_rv64i_rv128i.md R283) -/
  | subw (rd rs1 rs2 : Reg)
  /-- `SLLW` (42_rv32e_rv64i_rv128i.md R284) -/
  | sllw (rd rs1 rs2 : Reg)
  /-- `SRLW` (42_rv32e_rv64i_rv128i.md R285) -/
  | srlw (rd rs1 rs2 : Reg)
  /-- `SRAW` (42_rv32e_rv64i_rv128i.md R286) -/
  | sraw (rd rs1 rs2 : Reg)
  /- M and Zmmul (43_m.md) -/
  /-- `MUL` (43_m.md R312) -/
  | mul (rd rs1 rs2 : Reg)
  /-- `MULH` (43_m.md R313) -/
  | mulh (rd rs1 rs2 : Reg)
  /-- `MULHSU` (43_m.md R314) -/
  | mulhsu (rd rs1 rs2 : Reg)
  /-- `MULHU` (43_m.md R315) -/
  | mulhu (rd rs1 rs2 : Reg)
  /-- `DIV` (43_m.md R321) -/
  | div (rd rs1 rs2 : Reg)
  /-- `DIVU` (43_m.md R322) -/
  | divu (rd rs1 rs2 : Reg)
  /-- `REM` (43_m.md R323) -/
  | rem (rd rs1 rs2 : Reg)
  /-- `REMU` (43_m.md R324) -/
  | remu (rd rs1 rs2 : Reg)
  /-- `MULW` (43_m.md R316) -/
  | mulw (rd rs1 rs2 : Reg)
  /-- `DIVW` (43_m.md R325) -/
  | divw (rd rs1 rs2 : Reg)
  /-- `DIVUW` (43_m.md R326) -/
  | divuw (rd rs1 rs2 : Reg)
  /-- `REMW` (43_m.md R327) -/
  | remw (rd rs1 rs2 : Reg)
  /-- `REMUW` (43_m.md R328) -/
  | remuw (rd rs1 rs2 : Reg)
  /- A (44_a.md); `aq`, `rl` order only what other harts see (R332) -/
  /-- `LR.W` (44_a.md R340) -/
  | lrW (rd rs1 : Reg) (aq rl : BitVec 1)
  /-- `SC.W` (44_a.md R341) -/
  | scW (rd rs1 rs2 : Reg) (aq rl : BitVec 1)
  /-- `AMOSWAP.W` (44_a.md R351) -/
  | amoswapW (rd rs1 rs2 : Reg) (aq rl : BitVec 1)
  /-- `AMOADD.W` (44_a.md R352) -/
  | amoaddW (rd rs1 rs2 : Reg) (aq rl : BitVec 1)
  /-- `AMOXOR.W` (44_a.md R353) -/
  | amoxorW (rd rs1 rs2 : Reg) (aq rl : BitVec 1)
  /-- `AMOAND.W` (44_a.md R354) -/
  | amoandW (rd rs1 rs2 : Reg) (aq rl : BitVec 1)
  /-- `AMOOR.W` (44_a.md R355) -/
  | amoorW (rd rs1 rs2 : Reg) (aq rl : BitVec 1)
  /-- `AMOMIN.W` (44_a.md R356) -/
  | amominW (rd rs1 rs2 : Reg) (aq rl : BitVec 1)
  /-- `AMOMAX.W` (44_a.md R357) -/
  | amomaxW (rd rs1 rs2 : Reg) (aq rl : BitVec 1)
  /-- `AMOMINU.W` (44_a.md R358) -/
  | amominuW (rd rs1 rs2 : Reg) (aq rl : BitVec 1)
  /-- `AMOMAXU.W` (44_a.md R359) -/
  | amomaxuW (rd rs1 rs2 : Reg) (aq rl : BitVec 1)
  /-- `LR.D` (44_a.md R342) -/
  | lrD (rd rs1 : Reg) (aq rl : BitVec 1)
  /-- `SC.D` (44_a.md R343) -/
  | scD (rd rs1 rs2 : Reg) (aq rl : BitVec 1)
  /-- `AMOSWAP.D` (44_a.md R351) -/
  | amoswapD (rd rs1 rs2 : Reg) (aq rl : BitVec 1)
  /-- `AMOADD.D` (44_a.md R352) -/
  | amoaddD (rd rs1 rs2 : Reg) (aq rl : BitVec 1)
  /-- `AMOXOR.D` (44_a.md R353) -/
  | amoxorD (rd rs1 rs2 : Reg) (aq rl : BitVec 1)
  /-- `AMOAND.D` (44_a.md R354) -/
  | amoandD (rd rs1 rs2 : Reg) (aq rl : BitVec 1)
  /-- `AMOOR.D` (44_a.md R355) -/
  | amoorD (rd rs1 rs2 : Reg) (aq rl : BitVec 1)
  /-- `AMOMIN.D` (44_a.md R356) -/
  | amominD (rd rs1 rs2 : Reg) (aq rl : BitVec 1)
  /-- `AMOMAX.D` (44_a.md R357) -/
  | amomaxD (rd rs1 rs2 : Reg) (aq rl : BitVec 1)
  /-- `AMOMINU.D` (44_a.md R358) -/
  | amominuD (rd rs1 rs2 : Reg) (aq rl : BitVec 1)
  /-- `AMOMAXU.D` (44_a.md R359) -/
  | amomaxuD (rd rs1 rs2 : Reg) (aq rl : BitVec 1)
  /- Zicsr (45_zicsr_counters.md) -/
  /-- `CSRRW` (45_zicsr_counters.md R375) -/
  | csrrw (rd rs1 : Reg) (csr : BitVec 12)
  /-- `CSRRS` (45_zicsr_counters.md R376) -/
  | csrrs (rd rs1 : Reg) (csr : BitVec 12)
  /-- `CSRRC` (45_zicsr_counters.md R377) -/
  | csrrc (rd rs1 : Reg) (csr : BitVec 12)
  /-- `CSRRWI` (45_zicsr_counters.md R379) -/
  | csrrwi (rd : Reg) (uimm : BitVec 5) (csr : BitVec 12)
  /-- `CSRRSI` (45_zicsr_counters.md R386) -/
  | csrrsi (rd : Reg) (uimm : BitVec 5) (csr : BitVec 12)
  /-- `CSRRCI` (45_zicsr_counters.md R387) -/
  | csrrci (rd : Reg) (uimm : BitVec 5) (csr : BitVec 12)
  /- F (46_f.md) -/
  /-- `FLW` (46_f.md R411) -/
  | flw (rd rs1 : Reg) (imm : BitVec 12)
  /-- `FSW` (46_f.md R412) -/
  | fsw (rs1 rs2 : Reg) (imm : BitVec 12)
  /-- `FMADD.S` (46_f.md R420) -/
  | fmaddS (rd rs1 rs2 rs3 : Reg) (rm : BitVec 3)
  /-- `FMSUB.S` (46_f.md R421) -/
  | fmsubS (rd rs1 rs2 rs3 : Reg) (rm : BitVec 3)
  /-- `FNMSUB.S` (46_f.md R422) -/
  | fnmsubS (rd rs1 rs2 rs3 : Reg) (rm : BitVec 3)
  /-- `FNMADD.S` (46_f.md R423) -/
  | fnmaddS (rd rs1 rs2 rs3 : Reg) (rm : BitVec 3)
  /-- `FADD.S` (46_f.md R414) -/
  | faddS (rd rs1 rs2 : Reg) (rm : BitVec 3)
  /-- `FSUB.S` (46_f.md R415) -/
  | fsubS (rd rs1 rs2 : Reg) (rm : BitVec 3)
  /-- `FMUL.S` (46_f.md R416) -/
  | fmulS (rd rs1 rs2 : Reg) (rm : BitVec 3)
  /-- `FDIV.S` (46_f.md R417) -/
  | fdivS (rd rs1 rs2 : Reg) (rm : BitVec 3)
  /-- `FSQRT.S` (46_f.md R418) -/
  | fsqrtS (rd rs1 : Reg) (rm : BitVec 3)
  /-- `FSGNJ.S` (46_f.md R424) -/
  | fsgnjS (rd rs1 rs2 : Reg)
  /-- `FSGNJN.S` (46_f.md R425) -/
  | fsgnjnS (rd rs1 rs2 : Reg)
  /-- `FSGNJX.S` (46_f.md R426) -/
  | fsgnjxS (rd rs1 rs2 : Reg)
  /-- `FMIN.S` (46_f.md R427) -/
  | fminS (rd rs1 rs2 : Reg)
  /-- `FMAX.S` (46_f.md R428) -/
  | fmaxS (rd rs1 rs2 : Reg)
  /-- `FCVT.W.S` (46_f.md R430) -/
  | fcvtWS (rd rs1 : Reg) (rm : BitVec 3)
  /-- `FCVT.WU.S` (46_f.md R431) -/
  | fcvtWUS (rd rs1 : Reg) (rm : BitVec 3)
  /-- `FMV.X.W` (46_f.md R439) -/
  | fmvXW (rd rs1 : Reg)
  /-- `FEQ.S` (46_f.md R442) -/
  | feqS (rd rs1 rs2 : Reg)
  /-- `FLT.S` (46_f.md R443) -/
  | fltS (rd rs1 rs2 : Reg)
  /-- `FLE.S` (46_f.md R444) -/
  | fleS (rd rs1 rs2 : Reg)
  /-- `FCLASS.S` (46_f.md R445) -/
  | fclassS (rd rs1 : Reg)
  /-- `FCVT.S.W` (46_f.md R435) -/
  | fcvtSW (rd rs1 : Reg) (rm : BitVec 3)
  /-- `FCVT.S.WU` (46_f.md R436) -/
  | fcvtSWU (rd rs1 : Reg) (rm : BitVec 3)
  /-- `FMV.W.X` (46_f.md R440) -/
  | fmvWX (rd rs1 : Reg)
  /-- `FCVT.L.S` (46_f.md R432) -/
  | fcvtLS (rd rs1 : Reg) (rm : BitVec 3)
  /-- `FCVT.LU.S` (46_f.md R433) -/
  | fcvtLUS (rd rs1 : Reg) (rm : BitVec 3)
  /-- `FCVT.S.L` (46_f.md R437) -/
  | fcvtSL (rd rs1 : Reg) (rm : BitVec 3)
  /-- `FCVT.S.LU` (46_f.md R438) -/
  | fcvtSLU (rd rs1 : Reg) (rm : BitVec 3)
  /- D (47_d.md) -/
  /-- `FLD` (47_d.md R455) -/
  | fld (rd rs1 : Reg) (imm : BitVec 12)
  /-- `FSD` (47_d.md R456) -/
  | fsd (rs1 rs2 : Reg) (imm : BitVec 12)
  /-- `FMADD.D` (47_d.md R457) -/
  | fmaddD (rd rs1 rs2 rs3 : Reg) (rm : BitVec 3)
  /-- `FMSUB.D` (47_d.md R458) -/
  | fmsubD (rd rs1 rs2 rs3 : Reg) (rm : BitVec 3)
  /-- `FNMSUB.D` (47_d.md R459) -/
  | fnmsubD (rd rs1 rs2 rs3 : Reg) (rm : BitVec 3)
  /-- `FNMADD.D` (47_d.md R460) -/
  | fnmaddD (rd rs1 rs2 rs3 : Reg) (rm : BitVec 3)
  /-- `FADD.D` (47_d.md R461) -/
  | faddD (rd rs1 rs2 : Reg) (rm : BitVec 3)
  /-- `FSUB.D` (47_d.md R462) -/
  | fsubD (rd rs1 rs2 : Reg) (rm : BitVec 3)
  /-- `FMUL.D` (47_d.md R463) -/
  | fmulD (rd rs1 rs2 : Reg) (rm : BitVec 3)
  /-- `FDIV.D` (47_d.md R464) -/
  | fdivD (rd rs1 rs2 : Reg) (rm : BitVec 3)
  /-- `FSQRT.D` (47_d.md R465) -/
  | fsqrtD (rd rs1 : Reg) (rm : BitVec 3)
  /-- `FSGNJ.D` (47_d.md R466) -/
  | fsgnjD (rd rs1 rs2 : Reg)
  /-- `FSGNJN.D` (47_d.md R467) -/
  | fsgnjnD (rd rs1 rs2 : Reg)
  /-- `FSGNJX.D` (47_d.md R468) -/
  | fsgnjxD (rd rs1 rs2 : Reg)
  /-- `FMIN.D` (47_d.md R469) -/
  | fminD (rd rs1 rs2 : Reg)
  /-- `FMAX.D` (47_d.md R470) -/
  | fmaxD (rd rs1 rs2 : Reg)
  /-- `FCVT.S.D` (47_d.md R472) -/
  | fcvtSD (rd rs1 : Reg) (rm : BitVec 3)
  /-- `FCVT.D.S` (47_d.md R473) -/
  | fcvtDS (rd rs1 : Reg) (rm : BitVec 3)
  /-- `FEQ.D` (47_d.md R474) -/
  | feqD (rd rs1 rs2 : Reg)
  /-- `FLT.D` (47_d.md R475) -/
  | fltD (rd rs1 rs2 : Reg)
  /-- `FLE.D` (47_d.md R476) -/
  | fleD (rd rs1 rs2 : Reg)
  /-- `FCLASS.D` (47_d.md R477) -/
  | fclassD (rd rs1 : Reg)
  /-- `FCVT.W.D` (47_d.md R478) -/
  | fcvtWD (rd rs1 : Reg) (rm : BitVec 3)
  /-- `FCVT.WU.D` (47_d.md R479) -/
  | fcvtWUD (rd rs1 : Reg) (rm : BitVec 3)
  /-- `FCVT.D.W` (47_d.md R480) -/
  | fcvtDW (rd rs1 : Reg) (rm : BitVec 3)
  /-- `FCVT.D.WU` (47_d.md R481) -/
  | fcvtDWU (rd rs1 : Reg) (rm : BitVec 3)
  /-- `FCVT.L.D` (47_d.md R482) -/
  | fcvtLD (rd rs1 : Reg) (rm : BitVec 3)
  /-- `FCVT.LU.D` (47_d.md R483) -/
  | fcvtLUD (rd rs1 : Reg) (rm : BitVec 3)
  /-- `FMV.X.D` (47_d.md R484) -/
  | fmvXD (rd rs1 : Reg)
  /-- `FCVT.D.L` (47_d.md R485) -/
  | fcvtDL (rd rs1 : Reg) (rm : BitVec 3)
  /-- `FCVT.D.LU` (47_d.md R486) -/
  | fcvtDLU (rd rs1 : Reg) (rm : BitVec 3)
  /-- `FMV.D.X` (47_d.md R487) -/
  | fmvDX (rd rs1 : Reg)
  /- Q (48_q.md) -/
  /-- `FLQ` (48_q.md R492) -/
  | flq (rd rs1 : Reg) (imm : BitVec 12)
  /-- `FSQ` (48_q.md R493) -/
  | fsq (rs1 rs2 : Reg) (imm : BitVec 12)
  /-- `FMADD.Q` (48_q.md R494) -/
  | fmaddQ (rd rs1 rs2 rs3 : Reg) (rm : BitVec 3)
  /-- `FMSUB.Q` (48_q.md R495) -/
  | fmsubQ (rd rs1 rs2 rs3 : Reg) (rm : BitVec 3)
  /-- `FNMSUB.Q` (48_q.md R496) -/
  | fnmsubQ (rd rs1 rs2 rs3 : Reg) (rm : BitVec 3)
  /-- `FNMADD.Q` (48_q.md R497) -/
  | fnmaddQ (rd rs1 rs2 rs3 : Reg) (rm : BitVec 3)
  /-- `FADD.Q` (48_q.md R498) -/
  | faddQ (rd rs1 rs2 : Reg) (rm : BitVec 3)
  /-- `FSUB.Q` (48_q.md R499) -/
  | fsubQ (rd rs1 rs2 : Reg) (rm : BitVec 3)
  /-- `FMUL.Q` (48_q.md R500) -/
  | fmulQ (rd rs1 rs2 : Reg) (rm : BitVec 3)
  /-- `FDIV.Q` (48_q.md R501) -/
  | fdivQ (rd rs1 rs2 : Reg) (rm : BitVec 3)
  /-- `FSQRT.Q` (48_q.md R502) -/
  | fsqrtQ (rd rs1 : Reg) (rm : BitVec 3)
  /-- `FSGNJ.Q` (48_q.md R503) -/
  | fsgnjQ (rd rs1 rs2 : Reg)
  /-- `FSGNJN.Q` (48_q.md R504) -/
  | fsgnjnQ (rd rs1 rs2 : Reg)
  /-- `FSGNJX.Q` (48_q.md R505) -/
  | fsgnjxQ (rd rs1 rs2 : Reg)
  /-- `FMIN.Q` (48_q.md R506) -/
  | fminQ (rd rs1 rs2 : Reg)
  /-- `FMAX.Q` (48_q.md R507) -/
  | fmaxQ (rd rs1 rs2 : Reg)
  /-- `FCVT.S.Q` (48_q.md R508) -/
  | fcvtSQ (rd rs1 : Reg) (rm : BitVec 3)
  /-- `FCVT.Q.S` (48_q.md R509) -/
  | fcvtQS (rd rs1 : Reg) (rm : BitVec 3)
  /-- `FCVT.D.Q` (48_q.md R510) -/
  | fcvtDQ (rd rs1 : Reg) (rm : BitVec 3)
  /-- `FCVT.Q.D` (48_q.md R511) -/
  | fcvtQD (rd rs1 : Reg) (rm : BitVec 3)
  /-- `FEQ.Q` (48_q.md R512) -/
  | feqQ (rd rs1 rs2 : Reg)
  /-- `FLT.Q` (48_q.md R513) -/
  | fltQ (rd rs1 rs2 : Reg)
  /-- `FLE.Q` (48_q.md R514) -/
  | fleQ (rd rs1 rs2 : Reg)
  /-- `FCLASS.Q` (48_q.md R515) -/
  | fclassQ (rd rs1 : Reg)
  /-- `FCVT.W.Q` (48_q.md R516) -/
  | fcvtWQ (rd rs1 : Reg) (rm : BitVec 3)
  /-- `FCVT.WU.Q` (48_q.md R517) -/
  | fcvtWUQ (rd rs1 : Reg) (rm : BitVec 3)
  /-- `FCVT.Q.W` (48_q.md R518) -/
  | fcvtQW (rd rs1 : Reg) (rm : BitVec 3)
  /-- `FCVT.Q.WU` (48_q.md R519) -/
  | fcvtQWU (rd rs1 : Reg) (rm : BitVec 3)
  /-- `FCVT.L.Q` (48_q.md R520) -/
  | fcvtLQ (rd rs1 : Reg) (rm : BitVec 3)
  /-- `FCVT.LU.Q` (48_q.md R521) -/
  | fcvtLUQ (rd rs1 : Reg) (rm : BitVec 3)
  /-- `FCVT.Q.L` (48_q.md R522) -/
  | fcvtQL (rd rs1 : Reg) (rm : BitVec 3)
  /-- `FCVT.Q.LU` (48_q.md R523) -/
  | fcvtQLU (rd rs1 : Reg) (rm : BitVec 3)
  /- C (49_c.md); `CReg` operands name registers 8 to 15 -/
  /-- `illegal__all_zero` (49_c.md R535) -/
  | illegalAllZero
  /-- `C.ADDI4SPN` (49_c.md R540) -/
  | cAddi4spn (rd : CReg) (imm : BitVec 8)
  /-- `C.FLD` (49_c.md R541) -/
  | cFld (rd rs1 : CReg) (imm : BitVec 5)
  /-- `C.LW` (49_c.md R542) -/
  | cLw (rd rs1 : CReg) (imm : BitVec 5)
  /-- `C.FLW` (49_c.md R543) -/
  | cFlw (rd rs1 : CReg) (imm : BitVec 5)
  /-- `C.LD` (49_c.md R544) -/
  | cLd (rd rs1 : CReg) (imm : BitVec 5)
  /-- `C.FSD` (49_c.md R545) -/
  | cFsd (rs1 rs2 : CReg) (imm : BitVec 5)
  /-- `C.SW` (49_c.md R546) -/
  | cSw (rs1 rs2 : CReg) (imm : BitVec 5)
  /-- `C.FSW` (49_c.md R547) -/
  | cFsw (rs1 rs2 : CReg) (imm : BitVec 5)
  /-- `C.SD` (49_c.md R548) -/
  | cSd (rs1 rs2 : CReg) (imm : BitVec 5)
  /-- `C.NOP` (49_c.md R549) -/
  | cNop (imm : BitVec 6)
  /-- `C.ADDI` (49_c.md R550) -/
  | cAddi (rd : Reg) (imm : BitVec 6)
  /-- `C.JAL` (49_c.md R551) -/
  | cJal (offset : BitVec 11)
  /-- `C.ADDIW` (49_c.md R552) -/
  | cAddiw (rd : Reg) (imm : BitVec 6)
  /-- `C.LI` (49_c.md R553) -/
  | cLi (rd : Reg) (imm : BitVec 6)
  /-- `C.ADDI16SP` (49_c.md R554) -/
  | cAddi16sp (imm : BitVec 6)
  /-- `C.LUI` (49_c.md R555) -/
  | cLui (rd : Reg) (imm : BitVec 6)
  /-- `C.SRLI` (49_c.md R556) -/
  | cSrli (rd : CReg) (shamt : BitVec 6)
  /-- `C.SRAI` (49_c.md R557) -/
  | cSrai (rd : CReg) (shamt : BitVec 6)
  /-- `C.ANDI` (49_c.md R558) -/
  | cAndi (rd : CReg) (imm : BitVec 6)
  /-- `C.SUB` (49_c.md R559) -/
  | cSub (rd rs2 : CReg)
  /-- `C.XOR` (49_c.md R560) -/
  | cXor (rd rs2 : CReg)
  /-- `C.OR` (49_c.md R561) -/
  | cOr (rd rs2 : CReg)
  /-- `C.AND` (49_c.md R562) -/
  | cAnd (rd rs2 : CReg)
  /-- `C.SUBW` (49_c.md R563) -/
  | cSubw (rd rs2 : CReg)
  /-- `C.ADDW` (49_c.md R564) -/
  | cAddw (rd rs2 : CReg)
  /-- `C.J` (49_c.md R565) -/
  | cJ (offset : BitVec 11)
  /-- `C.BEQZ` (49_c.md R566) -/
  | cBeqz (rs1 : CReg) (offset : BitVec 8)
  /-- `C.BNEZ` (49_c.md R567) -/
  | cBnez (rs1 : CReg) (offset : BitVec 8)
  /-- `C.SLLI` (49_c.md R568) -/
  | cSlli (rd : Reg) (shamt : BitVec 6)
  /-- `C.FLDSP` (49_c.md R569) -/
  | cFldsp (rd : Reg) (imm : BitVec 6)
  /-- `C.LWSP` (49_c.md R570) -/
  | cLwsp (rd : Reg) (imm : BitVec 6)
  /-- `C.FLWSP` (49_c.md R571) -/
  | cFlwsp (rd : Reg) (imm : BitVec 6)
  /-- `C.LDSP` (49_c.md R572) -/
  | cLdsp (rd : Reg) (imm : BitVec 6)
  /-- `C.JR` (49_c.md R573) -/
  | cJr (rs1 : Reg)
  /-- `C.MV` (49_c.md R574) -/
  | cMv (rd rs2 : Reg)
  /-- `C.EBREAK` (49_c.md R575) -/
  | cEbreak
  /-- `C.JALR` (49_c.md R576) -/
  | cJalr (rs1 : Reg)
  /-- `C.ADD` (49_c.md R577) -/
  | cAdd (rd rs2 : Reg)
  /-- `C.FSDSP` (49_c.md R578) -/
  | cFsdsp (rs2 : Reg) (imm : BitVec 6)
  /-- `C.SWSP` (49_c.md R579) -/
  | cSwsp (rs2 : Reg) (imm : BitVec 6)
  /-- `C.FSWSP` (49_c.md R580) -/
  | cFswsp (rs2 : Reg) (imm : BitVec 6)
  /-- `C.SDSP` (49_c.md R581) -/
  | cSdsp (rs2 : Reg) (imm : BitVec 6)
  /-- `C.SLLI64__HINT` (49_c.md R534) -/
  | cSlli64 (rd : Reg)
  /-- `C.SRLI64__HINT` (49_c.md R534) -/
  | cSrli64 (rd : CReg)
  /-- `C.SRAI64__HINT` (49_c.md R534) -/
  | cSrai64 (rd : CReg)
  /-- `C.LQ` (49_c.md R586) -/
  | cLq (rd rs1 : CReg) (imm : BitVec 5)
  /-- `C.SQ` (49_c.md R587) -/
  | cSq (rs1 rs2 : CReg) (imm : BitVec 5)
  /-- `C.LQSP` (49_c.md R588) -/
  | cLqsp (rd : Reg) (imm : BitVec 6)
  /-- `C.SQSP` (49_c.md R589) -/
  | cSqsp (rs2 : Reg) (imm : BitVec 6)
deriving DecidableEq, Repr

end Sys2Proof
end

