-- ==== Sys2Proof/Machine/Presence.lean ====
section
/-! DEFINITION. Which instructions a configuration has and which operand fields are legal in it: the checks behind
WellFormed.lean (spec 30_encoding.md R170, R176 to R179; 42_rv32e_rv64i_rv128i.md R271; 49_c.md R533). -/

namespace Sys2Proof

/-- The module of the instruction is in (BASE, EXT) (30_encoding.md R170, R178; the "Present when" of each rule).
The RV128 rows are in no admitted configuration (00_scope.md R4; log 21). PAUSE and FENCE.TSO are code points of FENCE
in every configuration (41_rv32i_control_memory_system.md R256, R262). -/
def Instr.present (c : Config) : Instr → Bool
  | .lui .. | .auipc .. | .addi .. | .slti .. | .sltiu .. | .xori .. | .ori .. | .andi .. | .slli .. | .srli ..
  | .srai .. | .add .. | .sub .. | .sll .. | .slt .. | .sltu .. | .xor .. | .srl .. | .sra .. | .or ..
  | .and .. | .jal .. | .jalr .. | .beq .. | .bne .. | .blt .. | .bge .. | .bltu .. | .bgeu .. | .lb ..
  | .lh .. | .lw .. | .lbu .. | .lhu .. | .sb .. | .sh .. | .sw .. | .fence .. | .fenceTso | .pause | .ecall
  | .ebreak => true
  | .fenceI .. => c.ext.zifencei
  | .lwu .. | .ld .. | .sd .. | .addiw .. | .slliw .. | .srliw .. | .sraiw .. | .addw .. | .subw .. | .sllw ..
  | .srlw .. | .sraw .. => !c.is32
  | .mul .. | .mulh .. | .mulhsu .. | .mulhu .. => (c.ext.m || c.ext.zmmul)
  | .div .. | .divu .. | .rem .. | .remu .. => c.ext.m
  | .mulw .. => !c.is32 && (c.ext.m || c.ext.zmmul)
  | .divw .. | .divuw .. | .remw .. | .remuw .. => !c.is32 && c.ext.m
  | .lrW .. | .scW .. | .amoswapW .. | .amoaddW .. | .amoxorW .. | .amoandW .. | .amoorW .. | .amominW ..
  | .amomaxW .. | .amominuW .. | .amomaxuW .. => c.ext.a
  | .lrD .. | .scD .. | .amoswapD .. | .amoaddD .. | .amoxorD .. | .amoandD .. | .amoorD .. | .amominD ..
  | .amomaxD .. | .amominuD .. | .amomaxuD .. => !c.is32 && c.ext.a
  | .csrrw .. | .csrrs .. | .csrrc .. | .csrrwi .. | .csrrsi .. | .csrrci .. => c.ext.zicsr
  | .flw .. | .fsw .. | .fmaddS .. | .fmsubS .. | .fnmsubS .. | .fnmaddS .. | .faddS .. | .fsubS .. | .fmulS ..
  | .fdivS .. | .fsqrtS .. | .fsgnjS .. | .fsgnjnS .. | .fsgnjxS .. | .fminS .. | .fmaxS .. | .fcvtWS ..
  | .fcvtWUS .. | .fmvXW .. | .feqS .. | .fltS .. | .fleS .. | .fclassS .. | .fcvtSW .. | .fcvtSWU ..
  | .fmvWX .. => c.ext.f
  | .fcvtLS .. | .fcvtLUS .. | .fcvtSL .. | .fcvtSLU .. => !c.is32 && c.ext.f
  | .fld .. | .fsd .. | .fmaddD .. | .fmsubD .. | .fnmsubD .. | .fnmaddD .. | .faddD .. | .fsubD .. | .fmulD ..
  | .fdivD .. | .fsqrtD .. | .fsgnjD .. | .fsgnjnD .. | .fsgnjxD .. | .fminD .. | .fmaxD .. | .fcvtSD ..
  | .fcvtDS .. | .feqD .. | .fltD .. | .fleD .. | .fclassD .. | .fcvtWD .. | .fcvtWUD .. | .fcvtDW ..
  | .fcvtDWU .. => c.ext.d
  | .fcvtLD .. | .fcvtLUD .. | .fmvXD .. | .fcvtDL .. | .fcvtDLU .. | .fmvDX .. => !c.is32 && c.ext.d
  | .flq .. | .fsq .. | .fmaddQ .. | .fmsubQ .. | .fnmsubQ .. | .fnmaddQ .. | .faddQ .. | .fsubQ .. | .fmulQ ..
  | .fdivQ .. | .fsqrtQ .. | .fsgnjQ .. | .fsgnjnQ .. | .fsgnjxQ .. | .fminQ .. | .fmaxQ .. | .fcvtSQ ..
  | .fcvtQS .. | .fcvtDQ .. | .fcvtQD .. | .feqQ .. | .fltQ .. | .fleQ .. | .fclassQ .. | .fcvtWQ ..
  | .fcvtWUQ .. | .fcvtQW .. | .fcvtQWU .. => c.ext.q
  | .fcvtLQ .. | .fcvtLUQ .. | .fcvtQL .. | .fcvtQLU .. => !c.is32 && c.ext.q
  | .illegalAllZero | .cAddi4spn .. | .cLw .. | .cSw .. | .cNop .. | .cAddi .. | .cLi .. | .cAddi16sp ..
  | .cLui .. | .cSrli .. | .cSrai .. | .cAndi .. | .cSub .. | .cXor .. | .cOr .. | .cAnd .. | .cJ ..
  | .cBeqz .. | .cBnez .. | .cSlli .. | .cLwsp .. | .cJr .. | .cMv .. | .cEbreak | .cJalr .. | .cAdd ..
  | .cSwsp .. | .cSlli64 .. | .cSrli64 .. | .cSrai64 .. => c.ext.c
  | .cFld .. | .cFsd .. | .cFldsp .. | .cFsdsp .. => c.ext.c && c.ext.d
  | .cFlw .. | .cFsw .. | .cFlwsp .. | .cFswsp .. => c.is32 && c.ext.c && c.ext.f
  | .cLd .. | .cSd .. | .cAddiw .. | .cSubw .. | .cAddw .. | .cLdsp .. | .cSdsp .. => !c.is32 && c.ext.c
  | .cJal .. => c.is32 && c.ext.c
  | .cLq .. | .cSq .. | .cLqsp .. | .cSqsp .. => false

/-- The integer registers the instruction names in 5-bit fields, HINT code points included. Ignored fields (FENCE,
FENCE.I), floating-point register fields and `uimm` fields are not integer registers (R271). -/
def Instr.xregs : Instr → List Reg
  | .lui rd _ | .auipc rd _ | .jal rd _ | .csrrwi rd _ _ | .csrrsi rd _ _ | .csrrci rd _ _ | .fcvtWS rd _ _
  | .fcvtWUS rd _ _ | .fmvXW rd _ | .feqS rd _ _ | .fltS rd _ _ | .fleS rd _ _ | .fclassS rd _ | .fcvtLS rd _ _
  | .fcvtLUS rd _ _ | .feqD rd _ _ | .fltD rd _ _ | .fleD rd _ _ | .fclassD rd _ | .fcvtWD rd _ _
  | .fcvtWUD rd _ _ | .fcvtLD rd _ _ | .fcvtLUD rd _ _ | .fmvXD rd _ | .feqQ rd _ _ | .fltQ rd _ _
  | .fleQ rd _ _ | .fclassQ rd _ | .fcvtWQ rd _ _ | .fcvtWUQ rd _ _ | .fcvtLQ rd _ _ | .fcvtLUQ rd _ _
  | .cAddi rd _ | .cAddiw rd _ | .cLi rd _ | .cLui rd _ | .cSlli rd _ | .cLwsp rd _ | .cLdsp rd _ | .cSlli64 rd
  | .cLqsp rd _ => [rd]
  | .addi rd rs1 _ | .slti rd rs1 _ | .sltiu rd rs1 _ | .xori rd rs1 _ | .ori rd rs1 _ | .andi rd rs1 _
  | .slli rd rs1 _ | .srli rd rs1 _ | .srai rd rs1 _ | .jalr rd rs1 _ | .lb rd rs1 _ | .lh rd rs1 _
  | .lw rd rs1 _ | .lbu rd rs1 _ | .lhu rd rs1 _ | .lwu rd rs1 _ | .ld rd rs1 _ | .addiw rd rs1 _
  | .slliw rd rs1 _ | .srliw rd rs1 _ | .sraiw rd rs1 _ | .lrW rd rs1 _ _ | .lrD rd rs1 _ _ | .csrrw rd rs1 _
  | .csrrs rd rs1 _ | .csrrc rd rs1 _ => [rd, rs1]
  | .add rd rs1 rs2 | .sub rd rs1 rs2 | .sll rd rs1 rs2 | .slt rd rs1 rs2 | .sltu rd rs1 rs2 | .xor rd rs1 rs2
  | .srl rd rs1 rs2 | .sra rd rs1 rs2 | .or rd rs1 rs2 | .and rd rs1 rs2 | .addw rd rs1 rs2 | .subw rd rs1 rs2
  | .sllw rd rs1 rs2 | .srlw rd rs1 rs2 | .sraw rd rs1 rs2 | .mul rd rs1 rs2 | .mulh rd rs1 rs2
  | .mulhsu rd rs1 rs2 | .mulhu rd rs1 rs2 | .div rd rs1 rs2 | .divu rd rs1 rs2 | .rem rd rs1 rs2
  | .remu rd rs1 rs2 | .mulw rd rs1 rs2 | .divw rd rs1 rs2 | .divuw rd rs1 rs2 | .remw rd rs1 rs2
  | .remuw rd rs1 rs2 | .scW rd rs1 rs2 _ _ | .amoswapW rd rs1 rs2 _ _ | .amoaddW rd rs1 rs2 _ _
  | .amoxorW rd rs1 rs2 _ _ | .amoandW rd rs1 rs2 _ _ | .amoorW rd rs1 rs2 _ _ | .amominW rd rs1 rs2 _ _
  | .amomaxW rd rs1 rs2 _ _ | .amominuW rd rs1 rs2 _ _ | .amomaxuW rd rs1 rs2 _ _ | .scD rd rs1 rs2 _ _
  | .amoswapD rd rs1 rs2 _ _ | .amoaddD rd rs1 rs2 _ _ | .amoxorD rd rs1 rs2 _ _ | .amoandD rd rs1 rs2 _ _
  | .amoorD rd rs1 rs2 _ _ | .amominD rd rs1 rs2 _ _ | .amomaxD rd rs1 rs2 _ _ | .amominuD rd rs1 rs2 _ _
  | .amomaxuD rd rs1 rs2 _ _ => [rd, rs1, rs2]
  | .beq rs1 rs2 _ | .bne rs1 rs2 _ | .blt rs1 rs2 _ | .bge rs1 rs2 _ | .bltu rs1 rs2 _ | .bgeu rs1 rs2 _
  | .sb rs1 rs2 _ | .sh rs1 rs2 _ | .sw rs1 rs2 _ | .sd rs1 rs2 _ => [rs1, rs2]
  | .fence .. | .fenceTso | .pause | .fenceI .. | .ecall | .ebreak | .fmaddS .. | .fmsubS .. | .fnmsubS ..
  | .fnmaddS .. | .faddS .. | .fsubS .. | .fmulS .. | .fdivS .. | .fsqrtS .. | .fsgnjS .. | .fsgnjnS ..
  | .fsgnjxS .. | .fminS .. | .fmaxS .. | .fmaddD .. | .fmsubD .. | .fnmsubD .. | .fnmaddD .. | .faddD ..
  | .fsubD .. | .fmulD .. | .fdivD .. | .fsqrtD .. | .fsgnjD .. | .fsgnjnD .. | .fsgnjxD .. | .fminD ..
  | .fmaxD .. | .fcvtSD .. | .fcvtDS .. | .fmaddQ .. | .fmsubQ .. | .fnmsubQ .. | .fnmaddQ .. | .faddQ ..
  | .fsubQ .. | .fmulQ .. | .fdivQ .. | .fsqrtQ .. | .fsgnjQ .. | .fsgnjnQ .. | .fsgnjxQ .. | .fminQ ..
  | .fmaxQ .. | .fcvtSQ .. | .fcvtQS .. | .fcvtDQ .. | .fcvtQD .. | .illegalAllZero | .cAddi4spn .. | .cFld ..
  | .cLw .. | .cFlw .. | .cLd .. | .cFsd .. | .cSw .. | .cFsw .. | .cSd .. | .cNop .. | .cJal ..
  | .cAddi16sp .. | .cSrli .. | .cSrai .. | .cAndi .. | .cSub .. | .cXor .. | .cOr .. | .cAnd .. | .cSubw ..
  | .cAddw .. | .cJ .. | .cBeqz .. | .cBnez .. | .cFldsp .. | .cFlwsp .. | .cEbreak | .cFsdsp .. | .cFswsp ..
  | .cSrli64 .. | .cSrai64 .. | .cLq .. | .cSq .. => []
  | .flw _ rs1 _ | .fsw rs1 _ _ | .fcvtSW _ rs1 _ | .fcvtSWU _ rs1 _ | .fmvWX _ rs1 | .fcvtSL _ rs1 _
  | .fcvtSLU _ rs1 _ | .fld _ rs1 _ | .fsd rs1 _ _ | .fcvtDW _ rs1 _ | .fcvtDWU _ rs1 _ | .fcvtDL _ rs1 _
  | .fcvtDLU _ rs1 _ | .fmvDX _ rs1 | .flq _ rs1 _ | .fsq rs1 _ _ | .fcvtQW _ rs1 _ | .fcvtQWU _ rs1 _
  | .fcvtQL _ rs1 _ | .fcvtQLU _ rs1 _ | .cJr rs1 | .cJalr rs1 => [rs1]
  | .cMv rd rs2 | .cAdd rd rs2 => [rd, rs2]
  | .cSwsp rs2 _ | .cSdsp rs2 _ | .cSqsp rs2 _ => [rs2]

/-- FENCE.TSO's code point: fm = 1000, pred = succ = RW, rs1 = rd = x0 (41_rv32i_control_memory_system.md R256). -/
def isTsoPoint (fm pred succ : BitVec 4) (rs1 rd : Reg) : Bool :=
  fm == 0b1000#4 && pred == 0b0011#4 && succ == 0b0011#4 && rs1 == 0#5 && rd == 0#5

/-- PAUSE's code point: fm = 0, pred = W, succ = 0, rs1 = rd = x0 (R262). -/
def isPausePoint (fm pred succ : BitVec 4) (rs1 rd : Reg) : Bool :=
  fm == 0b0000#4 && pred == 0b0001#4 && succ == 0b0000#4 && rs1 == 0#5 && rd == 0#5

/-- With XLEN = 32 a shift amount has no bit 5 (40_rv32i_integer.md R207; 49_c.md R533). -/
def shamtFits (c : Config) (shamt : BitVec 6) : Bool := !c.is32 || !shamt.getLsbD 5

/-- The operand values that the encoding leaves to this instruction: a value excluded here is another instruction's
code point or a reserved one (40_rv32i_integer.md R207; 41 R256, R262; 49_c.md R533, R537). -/
def Instr.fieldsLegal (c : Config) : Instr → Bool
  | .slli _ _ shamt | .srli _ _ shamt | .srai _ _ shamt => shamtFits c shamt
  | .fence fm pred succ rs1 rd => !isTsoPoint fm pred succ rs1 rd && !isPausePoint fm pred succ rs1 rd
  | .cAddi4spn _ imm => imm != 0#8
  | .cAddi rd _ | .cAddiw rd _ | .cLwsp rd _ | .cLdsp rd _ | .cLqsp rd _ => rd != 0#5
  | .cAddi16sp imm => imm != 0#6
  | .cLui rd imm => rd != 2#5 && imm != 0#6
  | .cSrli _ shamt | .cSrai _ shamt | .cSlli _ shamt => shamt != 0#6 && shamtFits c shamt
  | .cJr rs1 | .cJalr rs1 => rs1 != 0#5
  | .cMv _ rs2 | .cAdd _ rs2 => rs2 != 0#5
  | .lui .. | .auipc .. | .addi .. | .slti .. | .sltiu .. | .xori .. | .ori .. | .andi .. | .add .. | .sub ..
  | .sll .. | .slt .. | .sltu .. | .xor .. | .srl .. | .sra .. | .or .. | .and .. | .jal .. | .jalr ..
  | .beq .. | .bne .. | .blt .. | .bge .. | .bltu .. | .bgeu .. | .lb .. | .lh .. | .lw .. | .lbu .. | .lhu ..
  | .sb .. | .sh .. | .sw .. | .fenceTso | .pause | .fenceI .. | .ecall | .ebreak | .lwu .. | .ld .. | .sd ..
  | .addiw .. | .slliw .. | .srliw .. | .sraiw .. | .addw .. | .subw .. | .sllw .. | .srlw .. | .sraw ..
  | .mul .. | .mulh .. | .mulhsu .. | .mulhu .. | .div .. | .divu .. | .rem .. | .remu .. | .mulw .. | .divw ..
  | .divuw .. | .remw .. | .remuw .. | .lrW .. | .scW .. | .amoswapW .. | .amoaddW .. | .amoxorW ..
  | .amoandW .. | .amoorW .. | .amominW .. | .amomaxW .. | .amominuW .. | .amomaxuW .. | .lrD .. | .scD ..
  | .amoswapD .. | .amoaddD .. | .amoxorD .. | .amoandD .. | .amoorD .. | .amominD .. | .amomaxD ..
  | .amominuD .. | .amomaxuD .. | .csrrw .. | .csrrs .. | .csrrc .. | .csrrwi .. | .csrrsi .. | .csrrci ..
  | .flw .. | .fsw .. | .fmaddS .. | .fmsubS .. | .fnmsubS .. | .fnmaddS .. | .faddS .. | .fsubS .. | .fmulS ..
  | .fdivS .. | .fsqrtS .. | .fsgnjS .. | .fsgnjnS .. | .fsgnjxS .. | .fminS .. | .fmaxS .. | .fcvtWS ..
  | .fcvtWUS .. | .fmvXW .. | .feqS .. | .fltS .. | .fleS .. | .fclassS .. | .fcvtSW .. | .fcvtSWU ..
  | .fmvWX .. | .fcvtLS .. | .fcvtLUS .. | .fcvtSL .. | .fcvtSLU .. | .fld .. | .fsd .. | .fmaddD ..
  | .fmsubD .. | .fnmsubD .. | .fnmaddD .. | .faddD .. | .fsubD .. | .fmulD .. | .fdivD .. | .fsqrtD ..
  | .fsgnjD .. | .fsgnjnD .. | .fsgnjxD .. | .fminD .. | .fmaxD .. | .fcvtSD .. | .fcvtDS .. | .feqD ..
  | .fltD .. | .fleD .. | .fclassD .. | .fcvtWD .. | .fcvtWUD .. | .fcvtDW .. | .fcvtDWU .. | .fcvtLD ..
  | .fcvtLUD .. | .fmvXD .. | .fcvtDL .. | .fcvtDLU .. | .fmvDX .. | .flq .. | .fsq .. | .fmaddQ ..
  | .fmsubQ .. | .fnmsubQ .. | .fnmaddQ .. | .faddQ .. | .fsubQ .. | .fmulQ .. | .fdivQ .. | .fsqrtQ ..
  | .fsgnjQ .. | .fsgnjnQ .. | .fsgnjxQ .. | .fminQ .. | .fmaxQ .. | .fcvtSQ .. | .fcvtQS .. | .fcvtDQ ..
  | .fcvtQD .. | .feqQ .. | .fltQ .. | .fleQ .. | .fclassQ .. | .fcvtWQ .. | .fcvtWUQ .. | .fcvtQW ..
  | .fcvtQWU .. | .fcvtLQ .. | .fcvtLUQ .. | .fcvtQL .. | .fcvtQLU .. | .illegalAllZero | .cFld .. | .cLw ..
  | .cFlw .. | .cLd .. | .cFsd .. | .cSw .. | .cFsw .. | .cSd .. | .cNop .. | .cJal .. | .cLi .. | .cAndi ..
  | .cSub .. | .cXor .. | .cOr .. | .cAnd .. | .cSubw .. | .cAddw .. | .cJ .. | .cBeqz .. | .cBnez ..
  | .cFldsp .. | .cFlwsp .. | .cEbreak | .cFsdsp .. | .cSwsp .. | .cFswsp .. | .cSdsp .. | .cSlli64 ..
  | .cSrli64 .. | .cSrai64 .. | .cLq .. | .cSq .. | .cSqsp .. => true

/-- RV32E has no x16 to x31 (42_rv32e_rv64i_rv128i.md R271). -/
def Instr.xregsExist (c : Config) (i : Instr) : Bool :=
  match c.base with
  | .rv32e => i.xregs.all fun r => !r.getLsbD 4
  | .rv32i => true
  | .rv64i => true

end Sys2Proof
end

