-- ==== Sys2Proof/WellFormed.lean ====
section
/-! DEFINITION. Well-formed instructions: those some word of the configuration decodes to (spec 30_encoding.md R170). -/

namespace Sys2Proof

/-- The instruction exists in the configuration, its operand fields are legal and the integer registers it names
exist. Executing any other instruction raises IllegalInstruction (60_exceptions.md R610). -/
def Instr.wellFormed (c : Config) (i : Instr) : Bool :=
  i.present c && i.fieldsLegal c && i.xregsExist c

end Sys2Proof
end

