-- ==== Sys2Proof/Decode.lean ====
section
/-! DEFINITION. Instruction words: the fields of an encoding, the decoder and, after it, the encoder, both from the
spec's encoding tables (30_encoding.md; the match and mask of every row of opcode_table.json; 49_c.md R537). -/

namespace Sys2Proof

/-- An instruction as fetched: one 16-bit parcel or a 32-bit word (30_encoding.md R151). -/
inductive Code where
  | half (h : BitVec 16)
  | word (w : BitVec 32)
deriving DecidableEq, Repr

/-- `ilen`: the length in bytes (10_state.md R25, 60_exceptions.md R605). -/
def Code.ilen : Code → Nat
  | .half _ => 2
  | .word _ => 4

/-- The instruction bits, zero-extended: what an IllegalInstruction record holds as `tval` (60_exceptions.md R609). -/
def Code.bits : Code → Word
  | .half h => h.setWidth 64
  | .word w => w.setWidth 64

/-- Why a code is no instruction of the configuration. Each raises IllegalInstruction (60_exceptions.md R610). -/
inductive Reject where
  /-- no row of the opcode table matches: a reserved or custom encoding (30_encoding.md R152, R176, R177) -/
  | reserved
  /-- a row matches, but its module is absent or an operand field is not legal here (R178, R179; 49_c.md R533) -/
  | notInConfiguration
  /-- fewer bytes than the length code announces -/
  | truncated
deriving DecidableEq, Repr

/-! ### Fields of a 32-bit word (30_encoding.md R160 to R168) -/

def fOpcode (w : BitVec 32) : BitVec 7 := w.extractLsb' 0 7
def fRd (w : BitVec 32) : Reg := w.extractLsb' 7 5
def fFunct3 (w : BitVec 32) : BitVec 3 := w.extractLsb' 12 3
def fRs1 (w : BitVec 32) : Reg := w.extractLsb' 15 5
def fRs2 (w : BitVec 32) : Reg := w.extractLsb' 20 5
def fFunct7 (w : BitVec 32) : BitVec 7 := w.extractLsb' 25 7
def fFunct6 (w : BitVec 32) : BitVec 6 := w.extractLsb' 26 6
def fFunct5 (w : BitVec 32) : BitVec 5 := w.extractLsb' 27 5
def fFmt (w : BitVec 32) : BitVec 2 := w.extractLsb' 25 2
def fAq (w : BitVec 32) : BitVec 1 := w.extractLsb' 26 1
def fRl (w : BitVec 32) : BitVec 1 := w.extractLsb' 25 1
def fShamt6 (w : BitVec 32) : BitVec 6 := w.extractLsb' 20 6
/-- I-immediate, and the CSR address. -/
def fImmI (w : BitVec 32) : BitVec 12 := w.extractLsb' 20 12
/-- S-immediate. -/
def fImmS (w : BitVec 32) : BitVec 12 := w.extractLsb' 25 7 ++ w.extractLsb' 7 5
/-- B-immediate, bits 12 to 1. -/
def fImmB (w : BitVec 32) : BitVec 12 :=
  w.extractLsb' 31 1 ++ w.extractLsb' 7 1 ++ w.extractLsb' 25 6 ++ w.extractLsb' 8 4
/-- U-immediate, bits 31 to 12. -/
def fImmU (w : BitVec 32) : BitVec 20 := w.extractLsb' 12 20
/-- J-immediate, bits 20 to 1. -/
def fImmJ (w : BitVec 32) : BitVec 20 :=
  w.extractLsb' 31 1 ++ w.extractLsb' 12 8 ++ w.extractLsb' 20 1 ++ w.extractLsb' 21 10

/-! ### The 32-bit decoder (R170): by major opcode, then funct3, funct7, funct5, fmt and rs2 -/

/-- The form of a floating-point instruction in the format `fmt` (46_f.md R400): 00 single, 01 double, 11 quad. -/
def byFmt (fmt : BitVec 2) (s d q : Instr) : Option Instr :=
  match fmt.toNat with
  | 0 => some s
  | 1 => some d
  | 3 => some q
  | _ => none

/-- The form of an atomic by funct3: 010 is `.W`, 011 is `.D` (44_a.md R330). -/
def byWidth (funct3 : BitVec 3) (word double : Instr) : Option Instr :=
  match funct3.toNat with
  | 2 => some word
  | 3 => some double
  | _ => none

def decodeLoad (w : BitVec 32) : Option Instr :=
  match (fFunct3 w).toNat with
  | 0 => some (.lb (fRd w) (fRs1 w) (fImmI w))
  | 1 => some (.lh (fRd w) (fRs1 w) (fImmI w))
  | 2 => some (.lw (fRd w) (fRs1 w) (fImmI w))
  | 3 => some (.ld (fRd w) (fRs1 w) (fImmI w))
  | 4 => some (.lbu (fRd w) (fRs1 w) (fImmI w))
  | 5 => some (.lhu (fRd w) (fRs1 w) (fImmI w))
  | 6 => some (.lwu (fRd w) (fRs1 w) (fImmI w))
  | _ => none

def decodeLoadFp (w : BitVec 32) : Option Instr :=
  match (fFunct3 w).toNat with
  | 2 => some (.flw (fRd w) (fRs1 w) (fImmI w))
  | 3 => some (.fld (fRd w) (fRs1 w) (fImmI w))
  | 4 => some (.flq (fRd w) (fRs1 w) (fImmI w))
  | _ => none

def decodeStore (w : BitVec 32) : Option Instr :=
  match (fFunct3 w).toNat with
  | 0 => some (.sb (fRs1 w) (fRs2 w) (fImmS w))
  | 1 => some (.sh (fRs1 w) (fRs2 w) (fImmS w))
  | 2 => some (.sw (fRs1 w) (fRs2 w) (fImmS w))
  | 3 => some (.sd (fRs1 w) (fRs2 w) (fImmS w))
  | _ => none

def decodeStoreFp (w : BitVec 32) : Option Instr :=
  match (fFunct3 w).toNat with
  | 2 => some (.fsw (fRs1 w) (fRs2 w) (fImmS w))
  | 3 => some (.fsd (fRs1 w) (fRs2 w) (fImmS w))
  | 4 => some (.fsq (fRs1 w) (fRs2 w) (fImmS w))
  | _ => none

/-- MISC-MEM: FENCE with its two named code points (R170 item 1), FENCE.I. -/
def decodeMiscMem (w : BitVec 32) : Option Instr :=
  match (fFunct3 w).toNat with
  | 0 =>
    if isTsoPoint (w.extractLsb' 28 4) (w.extractLsb' 24 4) (w.extractLsb' 20 4) (fRs1 w) (fRd w) then some .fenceTso
    else if isPausePoint (w.extractLsb' 28 4) (w.extractLsb' 24 4) (w.extractLsb' 20 4) (fRs1 w) (fRd w) then
      some .pause
    else some (.fence (w.extractLsb' 28 4) (w.extractLsb' 24 4) (w.extractLsb' 20 4) (fRs1 w) (fRd w))
  | 1 => some (.fenceI (fImmI w) (fRs1 w) (fRd w))
  | _ => none

/-- OP-IMM. The shift amount has 6 bits here; WellFormed refuses bit 5 where XLEN = 32 (40_rv32i_integer.md R207). -/
def decodeOpImm (w : BitVec 32) : Option Instr :=
  match (fFunct3 w).toNat with
  | 0 => some (.addi (fRd w) (fRs1 w) (fImmI w))
  | 1 => if fFunct6 w = 0b000000#6 then some (.slli (fRd w) (fRs1 w) (fShamt6 w)) else none
  | 2 => some (.slti (fRd w) (fRs1 w) (fImmI w))
  | 3 => some (.sltiu (fRd w) (fRs1 w) (fImmI w))
  | 4 => some (.xori (fRd w) (fRs1 w) (fImmI w))
  | 5 =>
    match (fFunct6 w).toNat with
    | 0b000000 => some (.srli (fRd w) (fRs1 w) (fShamt6 w))
    | 0b010000 => some (.srai (fRd w) (fRs1 w) (fShamt6 w))
    | _ => none
  | 6 => some (.ori (fRd w) (fRs1 w) (fImmI w))
  | _ => some (.andi (fRd w) (fRs1 w) (fImmI w))

/-- OP-IMM-32 (42_rv32e_rv64i_rv128i.md R278 to R281). -/
def decodeOpImm32 (w : BitVec 32) : Option Instr :=
  match (fFunct3 w).toNat with
  | 0 => some (.addiw (fRd w) (fRs1 w) (fImmI w))
  | 1 => if fFunct7 w = 0b0000000#7 then some (.slliw (fRd w) (fRs1 w) (fRs2 w)) else none
  | 5 =>
    match (fFunct7 w).toNat with
    | 0b0000000 => some (.srliw (fRd w) (fRs1 w) (fRs2 w))
    | 0b0100000 => some (.sraiw (fRd w) (fRs1 w) (fRs2 w))
    | _ => none
  | _ => none

/-- OP: RV32I and M (funct7 = 0000001). -/
def decodeOp (w : BitVec 32) : Option Instr :=
  match (fFunct7 w).toNat, (fFunct3 w).toNat with
  | 0b0000000, 0 => some (.add (fRd w) (fRs1 w) (fRs2 w))
  | 0b0100000, 0 => some (.sub (fRd w) (fRs1 w) (fRs2 w))
  | 0b0000000, 1 => some (.sll (fRd w) (fRs1 w) (fRs2 w))
  | 0b0000000, 2 => some (.slt (fRd w) (fRs1 w) (fRs2 w))
  | 0b0000000, 3 => some (.sltu (fRd w) (fRs1 w) (fRs2 w))
  | 0b0000000, 4 => some (.xor (fRd w) (fRs1 w) (fRs2 w))
  | 0b0000000, 5 => some (.srl (fRd w) (fRs1 w) (fRs2 w))
  | 0b0100000, 5 => some (.sra (fRd w) (fRs1 w) (fRs2 w))
  | 0b0000000, 6 => some (.or (fRd w) (fRs1 w) (fRs2 w))
  | 0b0000000, 7 => some (.and (fRd w) (fRs1 w) (fRs2 w))
  | 0b0000001, 0 => some (.mul (fRd w) (fRs1 w) (fRs2 w))
  | 0b0000001, 1 => some (.mulh (fRd w) (fRs1 w) (fRs2 w))
  | 0b0000001, 2 => some (.mulhsu (fRd w) (fRs1 w) (fRs2 w))
  | 0b0000001, 3 => some (.mulhu (fRd w) (fRs1 w) (fRs2 w))
  | 0b0000001, 4 => some (.div (fRd w) (fRs1 w) (fRs2 w))
  | 0b0000001, 5 => some (.divu (fRd w) (fRs1 w) (fRs2 w))
  | 0b0000001, 6 => some (.rem (fRd w) (fRs1 w) (fRs2 w))
  | 0b0000001, 7 => some (.remu (fRd w) (fRs1 w) (fRs2 w))
  | _, _ => none

/-- OP-32: RV64I and M. -/
def decodeOp32 (w : BitVec 32) : Option Instr :=
  match (fFunct7 w).toNat, (fFunct3 w).toNat with
  | 0b0000000, 0 => some (.addw (fRd w) (fRs1 w) (fRs2 w))
  | 0b0100000, 0 => some (.subw (fRd w) (fRs1 w) (fRs2 w))
  | 0b0000000, 1 => some (.sllw (fRd w) (fRs1 w) (fRs2 w))
  | 0b0000000, 5 => some (.srlw (fRd w) (fRs1 w) (fRs2 w))
  | 0b0100000, 5 => some (.sraw (fRd w) (fRs1 w) (fRs2 w))
  | 0b0000001, 0 => some (.mulw (fRd w) (fRs1 w) (fRs2 w))
  | 0b0000001, 4 => some (.divw (fRd w) (fRs1 w) (fRs2 w))
  | 0b0000001, 5 => some (.divuw (fRd w) (fRs1 w) (fRs2 w))
  | 0b0000001, 6 => some (.remw (fRd w) (fRs1 w) (fRs2 w))
  | 0b0000001, 7 => some (.remuw (fRd w) (fRs1 w) (fRs2 w))
  | _, _ => none

/-- AMO (44_a.md R330): funct5 selects the operation, funct3 the width; LR needs rs2 = 0 (R340). -/
def decodeAmo (w : BitVec 32) : Option Instr :=
  match (fFunct5 w).toNat with
  | 0b00010 =>
    if fRs2 w = 0#5 then
      byWidth (fFunct3 w) (.lrW (fRd w) (fRs1 w) (fAq w) (fRl w)) (.lrD (fRd w) (fRs1 w) (fAq w) (fRl w))
    else none
  | 0b00011 => byWidth (fFunct3 w) (.scW (fRd w) (fRs1 w) (fRs2 w) (fAq w) (fRl w))
      (.scD (fRd w) (fRs1 w) (fRs2 w) (fAq w) (fRl w))
  | 0b00001 => byWidth (fFunct3 w) (.amoswapW (fRd w) (fRs1 w) (fRs2 w) (fAq w) (fRl w))
      (.amoswapD (fRd w) (fRs1 w) (fRs2 w) (fAq w) (fRl w))
  | 0b00000 => byWidth (fFunct3 w) (.amoaddW (fRd w) (fRs1 w) (fRs2 w) (fAq w) (fRl w))
      (.amoaddD (fRd w) (fRs1 w) (fRs2 w) (fAq w) (fRl w))
  | 0b00100 => byWidth (fFunct3 w) (.amoxorW (fRd w) (fRs1 w) (fRs2 w) (fAq w) (fRl w))
      (.amoxorD (fRd w) (fRs1 w) (fRs2 w) (fAq w) (fRl w))
  | 0b01100 => byWidth (fFunct3 w) (.amoandW (fRd w) (fRs1 w) (fRs2 w) (fAq w) (fRl w))
      (.amoandD (fRd w) (fRs1 w) (fRs2 w) (fAq w) (fRl w))
  | 0b01000 => byWidth (fFunct3 w) (.amoorW (fRd w) (fRs1 w) (fRs2 w) (fAq w) (fRl w))
      (.amoorD (fRd w) (fRs1 w) (fRs2 w) (fAq w) (fRl w))
  | 0b10000 => byWidth (fFunct3 w) (.amominW (fRd w) (fRs1 w) (fRs2 w) (fAq w) (fRl w))
      (.amominD (fRd w) (fRs1 w) (fRs2 w) (fAq w) (fRl w))
  | 0b10100 => byWidth (fFunct3 w) (.amomaxW (fRd w) (fRs1 w) (fRs2 w) (fAq w) (fRl w))
      (.amomaxD (fRd w) (fRs1 w) (fRs2 w) (fAq w) (fRl w))
  | 0b11000 => byWidth (fFunct3 w) (.amominuW (fRd w) (fRs1 w) (fRs2 w) (fAq w) (fRl w))
      (.amominuD (fRd w) (fRs1 w) (fRs2 w) (fAq w) (fRl w))
  | 0b11100 => byWidth (fFunct3 w) (.amomaxuW (fRd w) (fRs1 w) (fRs2 w) (fAq w) (fRl w))
      (.amomaxuD (fRd w) (fRs1 w) (fRs2 w) (fAq w) (fRl w))
  | _ => none

/-- The FMADD major opcode: rs3 = inst[31:27], rm = inst[14:12]. -/
def decodeFmadd (w : BitVec 32) : Option Instr :=
  byFmt (fFmt w) (.fmaddS (fRd w) (fRs1 w) (fRs2 w) (fFunct5 w) (fFunct3 w))
      (.fmaddD (fRd w) (fRs1 w) (fRs2 w) (fFunct5 w) (fFunct3 w))
    (.fmaddQ (fRd w) (fRs1 w) (fRs2 w) (fFunct5 w) (fFunct3 w))

/-- The FMSUB major opcode: rs3 = inst[31:27], rm = inst[14:12]. -/
def decodeFmsub (w : BitVec 32) : Option Instr :=
  byFmt (fFmt w) (.fmsubS (fRd w) (fRs1 w) (fRs2 w) (fFunct5 w) (fFunct3 w))
      (.fmsubD (fRd w) (fRs1 w) (fRs2 w) (fFunct5 w) (fFunct3 w))
    (.fmsubQ (fRd w) (fRs1 w) (fRs2 w) (fFunct5 w) (fFunct3 w))

/-- The FNMSUB major opcode: rs3 = inst[31:27], rm = inst[14:12]. -/
def decodeFnmsub (w : BitVec 32) : Option Instr :=
  byFmt (fFmt w) (.fnmsubS (fRd w) (fRs1 w) (fRs2 w) (fFunct5 w) (fFunct3 w))
      (.fnmsubD (fRd w) (fRs1 w) (fRs2 w) (fFunct5 w) (fFunct3 w))
    (.fnmsubQ (fRd w) (fRs1 w) (fRs2 w) (fFunct5 w) (fFunct3 w))

/-- The FNMADD major opcode: rs3 = inst[31:27], rm = inst[14:12]. -/
def decodeFnmadd (w : BitVec 32) : Option Instr :=
  byFmt (fFmt w) (.fnmaddS (fRd w) (fRs1 w) (fRs2 w) (fFunct5 w) (fFunct3 w))
      (.fnmaddD (fRd w) (fRs1 w) (fRs2 w) (fFunct5 w) (fFunct3 w))
    (.fnmaddQ (fRd w) (fRs1 w) (fRs2 w) (fFunct5 w) (fFunct3 w))

/-- FCVT between floating-point formats: `fmt` is the destination, rs2 the source format (47_d.md R471; 48_q.md). -/
def decodeFcvtFormat (w : BitVec 32) : Option Instr :=
  match (fFmt w).toNat, (fRs2 w).toNat with
  | 0, 1 => some (.fcvtSD (fRd w) (fRs1 w) (fFunct3 w))
  | 0, 3 => some (.fcvtSQ (fRd w) (fRs1 w) (fFunct3 w))
  | 1, 0 => some (.fcvtDS (fRd w) (fRs1 w) (fFunct3 w))
  | 1, 3 => some (.fcvtDQ (fRd w) (fRs1 w) (fFunct3 w))
  | 3, 0 => some (.fcvtQS (fRd w) (fRs1 w) (fFunct3 w))
  | 3, 1 => some (.fcvtQD (fRd w) (fRs1 w) (fFunct3 w))
  | _, _ => none

/-- OP-FP by funct5 (46_f.md R446, 47_d.md R488, 48_q.md R524). -/
def decodeOpFp (w : BitVec 32) : Option Instr :=
  match (fFunct5 w).toNat with
  | 0b00000 => byFmt (fFmt w) (.faddS (fRd w) (fRs1 w) (fRs2 w) (fFunct3 w))
      (.faddD (fRd w) (fRs1 w) (fRs2 w) (fFunct3 w)) (.faddQ (fRd w) (fRs1 w) (fRs2 w) (fFunct3 w))
  | 0b00001 => byFmt (fFmt w) (.fsubS (fRd w) (fRs1 w) (fRs2 w) (fFunct3 w))
      (.fsubD (fRd w) (fRs1 w) (fRs2 w) (fFunct3 w)) (.fsubQ (fRd w) (fRs1 w) (fRs2 w) (fFunct3 w))
  | 0b00010 => byFmt (fFmt w) (.fmulS (fRd w) (fRs1 w) (fRs2 w) (fFunct3 w))
      (.fmulD (fRd w) (fRs1 w) (fRs2 w) (fFunct3 w)) (.fmulQ (fRd w) (fRs1 w) (fRs2 w) (fFunct3 w))
  | 0b00011 => byFmt (fFmt w) (.fdivS (fRd w) (fRs1 w) (fRs2 w) (fFunct3 w))
      (.fdivD (fRd w) (fRs1 w) (fRs2 w) (fFunct3 w)) (.fdivQ (fRd w) (fRs1 w) (fRs2 w) (fFunct3 w))
  | 0b01011 => if fRs2 w = 0#5 then byFmt (fFmt w) (.fsqrtS (fRd w) (fRs1 w) (fFunct3 w))
      (.fsqrtD (fRd w) (fRs1 w) (fFunct3 w)) (.fsqrtQ (fRd w) (fRs1 w) (fFunct3 w)) else none
  | 0b00100 =>
    match (fFunct3 w).toNat with
    | 0 => byFmt (fFmt w) (.fsgnjS (fRd w) (fRs1 w) (fRs2 w)) (.fsgnjD (fRd w) (fRs1 w) (fRs2 w))
        (.fsgnjQ (fRd w) (fRs1 w) (fRs2 w))
    | 1 => byFmt (fFmt w) (.fsgnjnS (fRd w) (fRs1 w) (fRs2 w)) (.fsgnjnD (fRd w) (fRs1 w) (fRs2 w))
        (.fsgnjnQ (fRd w) (fRs1 w) (fRs2 w))
    | 2 => byFmt (fFmt w) (.fsgnjxS (fRd w) (fRs1 w) (fRs2 w)) (.fsgnjxD (fRd w) (fRs1 w) (fRs2 w))
        (.fsgnjxQ (fRd w) (fRs1 w) (fRs2 w))
    | _ => none
  | 0b00101 =>
    match (fFunct3 w).toNat with
    | 0 => byFmt (fFmt w) (.fminS (fRd w) (fRs1 w) (fRs2 w)) (.fminD (fRd w) (fRs1 w) (fRs2 w))
        (.fminQ (fRd w) (fRs1 w) (fRs2 w))
    | 1 => byFmt (fFmt w) (.fmaxS (fRd w) (fRs1 w) (fRs2 w)) (.fmaxD (fRd w) (fRs1 w) (fRs2 w))
        (.fmaxQ (fRd w) (fRs1 w) (fRs2 w))
    | _ => none
  | 0b01000 => decodeFcvtFormat w
  | 0b10100 =>
    match (fFunct3 w).toNat with
    | 0 => byFmt (fFmt w) (.fleS (fRd w) (fRs1 w) (fRs2 w)) (.fleD (fRd w) (fRs1 w) (fRs2 w))
        (.fleQ (fRd w) (fRs1 w) (fRs2 w))
    | 1 => byFmt (fFmt w) (.fltS (fRd w) (fRs1 w) (fRs2 w)) (.fltD (fRd w) (fRs1 w) (fRs2 w))
        (.fltQ (fRd w) (fRs1 w) (fRs2 w))
    | 2 => byFmt (fFmt w) (.feqS (fRd w) (fRs1 w) (fRs2 w)) (.feqD (fRd w) (fRs1 w) (fRs2 w))
        (.feqQ (fRd w) (fRs1 w) (fRs2 w))
    | _ => none
  | 0b11000 =>
    match (fRs2 w).toNat with
    | 0 => byFmt (fFmt w) (.fcvtWS (fRd w) (fRs1 w) (fFunct3 w)) (.fcvtWD (fRd w) (fRs1 w) (fFunct3 w))
        (.fcvtWQ (fRd w) (fRs1 w) (fFunct3 w))
    | 1 => byFmt (fFmt w) (.fcvtWUS (fRd w) (fRs1 w) (fFunct3 w)) (.fcvtWUD (fRd w) (fRs1 w) (fFunct3 w))
        (.fcvtWUQ (fRd w) (fRs1 w) (fFunct3 w))
    | 2 => byFmt (fFmt w) (.fcvtLS (fRd w) (fRs1 w) (fFunct3 w)) (.fcvtLD (fRd w) (fRs1 w) (fFunct3 w))
        (.fcvtLQ (fRd w) (fRs1 w) (fFunct3 w))
    | 3 => byFmt (fFmt w) (.fcvtLUS (fRd w) (fRs1 w) (fFunct3 w)) (.fcvtLUD (fRd w) (fRs1 w) (fFunct3 w))
        (.fcvtLUQ (fRd w) (fRs1 w) (fFunct3 w))
    | _ => none
  | 0b11010 =>
    match (fRs2 w).toNat with
    | 0 => byFmt (fFmt w) (.fcvtSW (fRd w) (fRs1 w) (fFunct3 w)) (.fcvtDW (fRd w) (fRs1 w) (fFunct3 w))
        (.fcvtQW (fRd w) (fRs1 w) (fFunct3 w))
    | 1 => byFmt (fFmt w) (.fcvtSWU (fRd w) (fRs1 w) (fFunct3 w)) (.fcvtDWU (fRd w) (fRs1 w) (fFunct3 w))
        (.fcvtQWU (fRd w) (fRs1 w) (fFunct3 w))
    | 2 => byFmt (fFmt w) (.fcvtSL (fRd w) (fRs1 w) (fFunct3 w)) (.fcvtDL (fRd w) (fRs1 w) (fFunct3 w))
        (.fcvtQL (fRd w) (fRs1 w) (fFunct3 w))
    | 3 => byFmt (fFmt w) (.fcvtSLU (fRd w) (fRs1 w) (fFunct3 w)) (.fcvtDLU (fRd w) (fRs1 w) (fFunct3 w))
        (.fcvtQLU (fRd w) (fRs1 w) (fFunct3 w))
    | _ => none
  | 0b11100 =>
    if fRs2 w = 0#5 then
      match (fFunct3 w).toNat, (fFmt w).toNat with
      | 0, 0 => some (.fmvXW (fRd w) (fRs1 w))
      | 0, 1 => some (.fmvXD (fRd w) (fRs1 w))
      | 1, 0 => some (.fclassS (fRd w) (fRs1 w))
      | 1, 1 => some (.fclassD (fRd w) (fRs1 w))
      | 1, 3 => some (.fclassQ (fRd w) (fRs1 w))
      | _, _ => none
    else none
  | 0b11110 =>
    if fRs2 w = 0#5 ∧ fFunct3 w = 0#3 then
      match (fFmt w).toNat with
      | 0 => some (.fmvWX (fRd w) (fRs1 w))
      | 1 => some (.fmvDX (fRd w) (fRs1 w))
      | _ => none
    else none
  | _ => none

def decodeBranch (w : BitVec 32) : Option Instr :=
  match (fFunct3 w).toNat with
  | 0 => some (.beq (fRs1 w) (fRs2 w) (fImmB w))
  | 1 => some (.bne (fRs1 w) (fRs2 w) (fImmB w))
  | 4 => some (.blt (fRs1 w) (fRs2 w) (fImmB w))
  | 5 => some (.bge (fRs1 w) (fRs2 w) (fImmB w))
  | 6 => some (.bltu (fRs1 w) (fRs2 w) (fImmB w))
  | 7 => some (.bgeu (fRs1 w) (fRs2 w) (fImmB w))
  | _ => none

/-- SYSTEM: ECALL and EBREAK are whole words (R170 item 2); the six CSR instructions (45_zicsr_counters.md R370). -/
def decodeSystem (w : BitVec 32) : Option Instr :=
  match (fFunct3 w).toNat with
  | 0 =>
    if fRs1 w = 0#5 ∧ fRd w = 0#5 then
      match (fImmI w).toNat with
      | 0 => some .ecall
      | 1 => some .ebreak
      | _ => none
    else none
  | 1 => some (.csrrw (fRd w) (fRs1 w) (fImmI w))
  | 2 => some (.csrrs (fRd w) (fRs1 w) (fImmI w))
  | 3 => some (.csrrc (fRd w) (fRs1 w) (fImmI w))
  | 5 => some (.csrrwi (fRd w) (fRs1 w) (fImmI w))
  | 6 => some (.csrrsi (fRd w) (fRs1 w) (fImmI w))
  | 7 => some (.csrrci (fRd w) (fRs1 w) (fImmI w))
  | _ => none

/-- The row of the 32-bit opcode table that a word matches, in whatever configuration has it. Everything else is
reserved or custom, the all-ones word among it (R152, R176, R177). -/
def decodeWord (w : BitVec 32) : Option Instr :=
  match (fOpcode w).toNat with
  | 0b0110111 => some (.lui (fRd w) (fImmU w))
  | 0b0010111 => some (.auipc (fRd w) (fImmU w))
  | 0b1101111 => some (.jal (fRd w) (fImmJ w))
  | 0b1100111 => if fFunct3 w = 0#3 then some (.jalr (fRd w) (fRs1 w) (fImmI w)) else none
  | 0b1100011 => decodeBranch w
  | 0b0000011 => decodeLoad w
  | 0b0000111 => decodeLoadFp w
  | 0b0100011 => decodeStore w
  | 0b0100111 => decodeStoreFp w
  | 0b0001111 => decodeMiscMem w
  | 0b0010011 => decodeOpImm w
  | 0b0011011 => decodeOpImm32 w
  | 0b0110011 => decodeOp w
  | 0b0111011 => decodeOp32 w
  | 0b0101111 => decodeAmo w
  | 0b1000011 => decodeFmadd w
  | 0b1000111 => decodeFmsub w
  | 0b1001011 => decodeFnmsub w
  | 0b1001111 => decodeFnmadd w
  | 0b1010011 => decodeOpFp w
  | 0b1110011 => decodeSystem w
  | _ => none

/-! ### Fields of a 16-bit instruction (30_encoding.md R185; immediates 49_c.md R538 and each instruction's map) -/

def hFunct3 (h : BitVec 16) : BitVec 3 := h.extractLsb' 13 3
def hBit12 (h : BitVec 16) : BitVec 1 := h.extractLsb' 12 1
/-- rd, rs1 or rd/rs1 of CR and CI. -/
def hRd (h : BitVec 16) : Reg := h.extractLsb' 7 5
/-- rs2 of CR and CSS; the low immediate field of CI. -/
def hRs2 (h : BitVec 16) : Reg := h.extractLsb' 2 5
/-- rs1′ or rd′/rs1′. -/
def hRs1c (h : BitVec 16) : CReg := h.extractLsb' 7 3
/-- rd′ of CIW and CL, rs2′ of CS and CA. -/
def hRdc (h : BitVec 16) : CReg := h.extractLsb' 2 3
/-- imm[5:0] of CI and of the CB arithmetic forms; a shift amount. -/
def hImm6 (h : BitVec 16) : BitVec 6 := h.extractLsb' 12 1 ++ h.extractLsb' 2 5
/-- C.ADDI4SPN: h[12:5] holds nzuimm[5:4|9:6|2|3] (R540). -/
def hImm4spn (h : BitVec 16) : BitVec 8 :=
  h.extractLsb' 7 4 ++ h.extractLsb' 11 2 ++ h.extractLsb' 5 1 ++ h.extractLsb' 6 1
/-- Word offset of CL and CS: h[12:10] holds uimm[5:3], h[6:5] holds uimm[2|6] (R542). -/
def hOffW (h : BitVec 16) : BitVec 5 := h.extractLsb' 5 1 ++ h.extractLsb' 10 3 ++ h.extractLsb' 6 1
/-- Doubleword offset of CL and CS: uimm[5:3], uimm[7:6] (R541). -/
def hOffD (h : BitVec 16) : BitVec 5 := h.extractLsb' 5 2 ++ h.extractLsb' 10 3
/-- C.ADDI16SP: h[12] holds nzimm[9], h[6:2] holds nzimm[4|6|8:7|5] (R554). -/
def hImm16sp (h : BitVec 16) : BitVec 6 :=
  h.extractLsb' 12 1 ++ h.extractLsb' 3 2 ++ h.extractLsb' 5 1 ++ h.extractLsb' 2 1 ++ h.extractLsb' 6 1
/-- CJ: h[12:2] holds offset[11|4|9:8|10|6|7|3:1|5] (R538). -/
def hOffJ (h : BitVec 16) : BitVec 11 :=
  h.extractLsb' 12 1 ++ h.extractLsb' 8 1 ++ h.extractLsb' 9 2 ++ h.extractLsb' 6 1 ++ h.extractLsb' 7 1 ++
    h.extractLsb' 2 1 ++ h.extractLsb' 11 1 ++ h.extractLsb' 3 3
/-- CB: h[12:10] holds offset[8|4:3], h[6:2] holds offset[7:6|2:1|5] (R538). -/
def hOffB (h : BitVec 16) : BitVec 8 :=
  h.extractLsb' 12 1 ++ h.extractLsb' 5 2 ++ h.extractLsb' 2 1 ++ h.extractLsb' 10 2 ++ h.extractLsb' 3 2
/-- Stack-relative word load: h[12] holds uimm[5], h[6:2] holds uimm[4:2|7:6] (R570). -/
def hLoadSpW (h : BitVec 16) : BitVec 6 := h.extractLsb' 2 2 ++ h.extractLsb' 12 1 ++ h.extractLsb' 4 3
/-- Stack-relative doubleword load: uimm[5], uimm[4:3|8:6] (R569). -/
def hLoadSpD (h : BitVec 16) : BitVec 6 := h.extractLsb' 2 3 ++ h.extractLsb' 12 1 ++ h.extractLsb' 5 2
/-- Stack-relative word store: h[12:7] holds uimm[5:2|7:6] (R579). -/
def hStoreSpW (h : BitVec 16) : BitVec 6 := h.extractLsb' 7 2 ++ h.extractLsb' 9 4
/-- Stack-relative doubleword store: h[12:7] holds uimm[5:3|8:6] (R578). -/
def hStoreSpD (h : BitVec 16) : BitVec 6 := h.extractLsb' 7 3 ++ h.extractLsb' 10 3

/-! ### The 16-bit decoder (49_c.md R537): by quadrant and funct3 -/

def decodeQuadrant0 (c : Config) (h : BitVec 16) : Option Instr :=
  match (hFunct3 h).toNat with
  | 0 => if h = 0#16 then some .illegalAllZero else some (.cAddi4spn (hRdc h) (hImm4spn h))
  | 1 => some (.cFld (hRdc h) (hRs1c h) (hOffD h))
  | 2 => some (.cLw (hRdc h) (hRs1c h) (hOffW h))
  | 3 => some (if c.is32 then .cFlw (hRdc h) (hRs1c h) (hOffW h) else .cLd (hRdc h) (hRs1c h) (hOffD h))
  | 5 => some (.cFsd (hRs1c h) (hRdc h) (hOffD h))
  | 6 => some (.cSw (hRs1c h) (hRdc h) (hOffW h))
  | 7 => some (if c.is32 then .cFsw (hRs1c h) (hRdc h) (hOffW h) else .cSd (hRs1c h) (hRdc h) (hOffD h))
  | _ => none

/-- Quadrant 1, funct3 = 100: by h[11:10], then h[12] and h[6:5]. -/
def decodeMiscAlu (h : BitVec 16) : Option Instr :=
  match (h.extractLsb' 10 2 : BitVec 2).toNat with
  | 0 => some (if hImm6 h = 0#6 then .cSrli64 (hRs1c h) else .cSrli (hRs1c h) (hImm6 h))
  | 1 => some (if hImm6 h = 0#6 then .cSrai64 (hRs1c h) else .cSrai (hRs1c h) (hImm6 h))
  | 2 => some (.cAndi (hRs1c h) (hImm6 h))
  | _ =>
    match (hBit12 h).toNat, (h.extractLsb' 5 2 : BitVec 2).toNat with
    | 0, 0 => some (.cSub (hRs1c h) (hRdc h))
    | 0, 1 => some (.cXor (hRs1c h) (hRdc h))
    | 0, 2 => some (.cOr (hRs1c h) (hRdc h))
    | 0, 3 => some (.cAnd (hRs1c h) (hRdc h))
    | 1, 0 => some (.cSubw (hRs1c h) (hRdc h))
    | 1, 1 => some (.cAddw (hRs1c h) (hRdc h))
    | _, _ => none

def decodeQuadrant1 (c : Config) (h : BitVec 16) : Option Instr :=
  match (hFunct3 h).toNat with
  | 0 => some (if hRd h = 0#5 then .cNop (hImm6 h) else .cAddi (hRd h) (hImm6 h))
  | 1 => some (if c.is32 then .cJal (hOffJ h) else .cAddiw (hRd h) (hImm6 h))
  | 2 => some (.cLi (hRd h) (hImm6 h))
  | 3 => some (if hRd h = 2#5 then .cAddi16sp (hImm16sp h) else .cLui (hRd h) (hImm6 h))
  | 4 => decodeMiscAlu h
  | 5 => some (.cJ (hOffJ h))
  | 6 => some (.cBeqz (hRs1c h) (hOffB h))
  | _ => some (.cBnez (hRs1c h) (hOffB h))

/-- Quadrant 2, funct3 = 100: by h[12] and whether rs2 is 0. -/
def decodeJumpMove (h : BitVec 16) : Option Instr :=
  match (hBit12 h).toNat with
  | 0 => some (if hRs2 h = 0#5 then .cJr (hRd h) else .cMv (hRd h) (hRs2 h))
  | _ =>
    if hRs2 h = 0#5 then some (if hRd h = 0#5 then .cEbreak else .cJalr (hRd h))
    else some (.cAdd (hRd h) (hRs2 h))

def decodeQuadrant2 (c : Config) (h : BitVec 16) : Option Instr :=
  match (hFunct3 h).toNat with
  | 0 => some (if hImm6 h = 0#6 then .cSlli64 (hRd h) else .cSlli (hRd h) (hImm6 h))
  | 1 => some (.cFldsp (hRd h) (hLoadSpD h))
  | 2 => some (.cLwsp (hRd h) (hLoadSpW h))
  | 3 => some (if c.is32 then .cFlwsp (hRd h) (hLoadSpW h) else .cLdsp (hRd h) (hLoadSpD h))
  | 4 => decodeJumpMove h
  | 5 => some (.cFsdsp (hRs2 h) (hStoreSpD h))
  | 6 => some (.cSwsp (hRs2 h) (hStoreSpW h))
  | _ => some (if c.is32 then .cFswsp (hRs2 h) (hStoreSpW h) else .cSdsp (hRs2 h) (hStoreSpD h))

/-- The row of the 16-bit tables that a parcel selects (R537). The RV128 cells C.LQ, C.SQ, C.LQSP and C.SQSP belong to
C.FLD, C.FSD, C.FLDSP and C.FSDSP in every admitted base (R187; log 21). -/
def decodeHalf (c : Config) (h : BitVec 16) : Option Instr :=
  match (h.extractLsb' 0 2 : BitVec 2).toNat with
  | 0 => decodeQuadrant0 c h
  | 1 => decodeQuadrant1 c h
  | 2 => decodeQuadrant2 c h
  | _ => none

/-! ### Decoding a code, and any bytes -/

/-- The instruction a code is in the configuration, or why it is none (R170, R176 to R178). -/
def decode (c : Config) (k : Code) : Except Reject Instr :=
  let row := match k with
    | .half h => decodeHalf c h
    | .word w => decodeWord w
  match row with
  | none => .error .reserved
  | some i => if i.wellFormed c then .ok i else .error .notInConfiguration

/-- The length code (30_encoding.md R151): with C, a first parcel whose low bits are not 11 is a 16-bit instruction;
everything else is taken as 32 bits. -/
def isHalf (c : Config) (parcel : BitVec 16) : Bool :=
  c.ext.c && !(parcel.getLsbD 0 && parcel.getLsbD 1)

/-- A parcel from its two bytes, the lower address first (20_memory.md R63). -/
def parcelOf (b0 b1 : Byte) : BitVec 16 := b1 ++ b0

/-- The code that starts a sequence of bytes, and the bytes after it (R63, R151). -/
def codeOfBytes (c : Config) : List Byte → Option (Code × List Byte)
  | b0 :: b1 :: rest =>
    if isHalf c (parcelOf b0 b1) then some (.half (parcelOf b0 b1), rest)
    else match rest with
      | b2 :: b3 :: rest' => some (.word (parcelOf b2 b3 ++ parcelOf b0 b1), rest')
      | _ => none
  | _ => none

/-- The instruction that starts a sequence of bytes, and the bytes after it: total on any bytes. -/
def decodeBytes (c : Config) (bs : List Byte) : Except Reject (Instr × List Byte) :=
  match codeOfBytes c bs with
  | none => .error .truncated
  | some (k, rest) => (decode c k).map fun i => (i, rest)

/-- The four bytes of a word of at most 32 bits, lowest address first: how an instruction lies in memory (R63). -/
def bytesOfWord (w : Nat) : List Byte :=
  [BitVec.ofNat 8 w, BitVec.ofNat 8 (w / 2 ^ 8), BitVec.ofNat 8 (w / 2 ^ 16), BitVec.ofNat 8 (w / 2 ^ 24)]

/-- The instruction the decoder reads from a word of `nbits` bits numbered as spec/opcode_table.json numbers them, in
the reset configuration (log 9). -/
def decodeTableWord (nbits w : Nat) : Option Instr :=
  match decodeBytes Config.reset (bytesOfWord (w % 2 ^ nbits)) with
  | .ok (i, _) => some i
  | .error _ => none

/-! ### The encoder -/

def encR (funct7 : BitVec 7) (rs2 rs1 : Reg) (funct3 : BitVec 3) (rd : Reg) (opcode : BitVec 7) : Code :=
  .word (funct7 ++ rs2 ++ rs1 ++ funct3 ++ rd ++ opcode)

def encI (imm : BitVec 12) (rs1 : Reg) (funct3 : BitVec 3) (rd : Reg) (opcode : BitVec 7) : Code :=
  .word (imm ++ rs1 ++ funct3 ++ rd ++ opcode)

def encShift (funct6 : BitVec 6) (shamt : BitVec 6) (rs1 : Reg) (funct3 : BitVec 3) (rd : Reg) : Code :=
  .word (funct6 ++ shamt ++ rs1 ++ funct3 ++ rd ++ 0b0010011#7)

def encS (imm : BitVec 12) (rs2 rs1 : Reg) (funct3 : BitVec 3) (opcode : BitVec 7) : Code :=
  .word (imm.extractLsb' 5 7 ++ rs2 ++ rs1 ++ funct3 ++ imm.extractLsb' 0 5 ++ opcode)

/-- `offset` holds offset[12:1]. -/
def encB (offset : BitVec 12) (rs2 rs1 : Reg) (funct3 : BitVec 3) : Code :=
  .word (offset.extractLsb' 11 1 ++ offset.extractLsb' 4 6 ++ rs2 ++ rs1 ++ funct3 ++ offset.extractLsb' 0 4 ++
    offset.extractLsb' 10 1 ++ 0b1100011#7)

def encU (imm : BitVec 20) (rd : Reg) (opcode : BitVec 7) : Code := .word (imm ++ rd ++ opcode)

/-- `offset` holds offset[20:1]. -/
def encJ (offset : BitVec 20) (rd : Reg) : Code :=
  .word (offset.extractLsb' 19 1 ++ offset.extractLsb' 0 10 ++ offset.extractLsb' 10 1 ++ offset.extractLsb' 11 8 ++
    rd ++ 0b1101111#7)

def encAmo (funct5 : BitVec 5) (aq rl : BitVec 1) (rs2 rs1 : Reg) (funct3 : BitVec 3) (rd : Reg) : Code :=
  .word (funct5 ++ aq ++ rl ++ rs2 ++ rs1 ++ funct3 ++ rd ++ 0b0101111#7)

def encR4 (rs3 : Reg) (fmt : BitVec 2) (rs2 rs1 : Reg) (rm : BitVec 3) (rd : Reg) (opcode : BitVec 7) : Code :=
  .word (rs3 ++ fmt ++ rs2 ++ rs1 ++ rm ++ rd ++ opcode)

def encFence (fm pred succ : BitVec 4) (rs1 rd : Reg) : Code :=
  .word (fm ++ pred ++ succ ++ rs1 ++ 0b000#3 ++ rd ++ 0b0001111#7)

def encCR (funct4 : BitVec 4) (rd rs2 : Reg) : Code := .half (funct4 ++ rd ++ rs2 ++ 0b10#2)

/-- CI and the other forms with h[12] and h[6:2] as immediate: `imm` is h[12] followed by h[6:2]. -/
def encCI (funct3 : BitVec 3) (imm : BitVec 6) (rd : Reg) (q : BitVec 2) : Code :=
  .half (funct3 ++ imm.extractLsb' 5 1 ++ rd ++ imm.extractLsb' 0 5 ++ q)

def encCSS (funct3 : BitVec 3) (field : BitVec 6) (rs2 : Reg) : Code := .half (funct3 ++ field ++ rs2 ++ 0b10#2)

def encCIW (imm : BitVec 8) (rd : CReg) : Code :=
  .half (0b000#3 ++ imm.extractLsb' 2 2 ++ imm.extractLsb' 4 4 ++ imm.extractLsb' 0 1 ++ imm.extractLsb' 1 1 ++ rd ++
    0b00#2)

/-- CL and CS with a word offset, uimm[6:2]. -/
def encCW (funct3 : BitVec 3) (imm : BitVec 5) (rs1 r : CReg) : Code :=
  .half (funct3 ++ imm.extractLsb' 1 3 ++ rs1 ++ imm.extractLsb' 0 1 ++ imm.extractLsb' 4 1 ++ r ++ 0b00#2)

/-- CL and CS with a doubleword offset, uimm[7:3]. -/
def encCD (funct3 : BitVec 3) (imm : BitVec 5) (rs1 r : CReg) : Code :=
  .half (funct3 ++ imm.extractLsb' 0 3 ++ rs1 ++ imm.extractLsb' 3 2 ++ r ++ 0b00#2)

/-- CL and CS with a quadword offset, uimm[8:4]: h[12:10] holds uimm[5:4|8], h[6:5] holds uimm[7:6]. -/
def encCQ (funct3 : BitVec 3) (imm : BitVec 5) (rs1 r : CReg) : Code :=
  .half (funct3 ++ imm.extractLsb' 0 2 ++ imm.extractLsb' 4 1 ++ rs1 ++ imm.extractLsb' 2 2 ++ r ++ 0b00#2)

def encCA (funct6 : BitVec 6) (rd : CReg) (funct2 : BitVec 2) (rs2 : CReg) : Code :=
  .half (funct6 ++ rd ++ funct2 ++ rs2 ++ 0b01#2)

/-- The CB arithmetic forms: funct2 = h[11:10]. -/
def encCBAlu (funct2 : BitVec 2) (imm : BitVec 6) (rd : CReg) : Code :=
  .half (0b100#3 ++ imm.extractLsb' 5 1 ++ funct2 ++ rd ++ imm.extractLsb' 0 5 ++ 0b01#2)

/-- The CB branches: `offset` holds offset[8:1]. -/
def encCB (funct3 : BitVec 3) (offset : BitVec 8) (rs1 : CReg) : Code :=
  .half (funct3 ++ offset.extractLsb' 7 1 ++ offset.extractLsb' 2 2 ++ rs1 ++ offset.extractLsb' 5 2 ++
    offset.extractLsb' 0 2 ++ offset.extractLsb' 4 1 ++ 0b01#2)

/-- `offset` holds offset[11:1]. -/
def encCJ (funct3 : BitVec 3) (offset : BitVec 11) : Code :=
  .half (funct3 ++ offset.extractLsb' 10 1 ++ offset.extractLsb' 3 1 ++ offset.extractLsb' 7 2 ++
    offset.extractLsb' 9 1 ++ offset.extractLsb' 5 1 ++ offset.extractLsb' 6 1 ++ offset.extractLsb' 0 3 ++
    offset.extractLsb' 4 1 ++ 0b01#2)

/-- h[12] ++ h[6:2] of C.ADDI16SP from nzimm[9:4]. -/
def field16sp (imm : BitVec 6) : BitVec 6 :=
  imm.extractLsb' 5 1 ++ imm.extractLsb' 0 1 ++ imm.extractLsb' 2 1 ++ imm.extractLsb' 3 2 ++ imm.extractLsb' 1 1

/-- h[12] ++ h[6:2] of a stack-relative word load from uimm[7:2]. -/
def fieldLoadSpW (imm : BitVec 6) : BitVec 6 := imm.extractLsb' 3 1 ++ imm.extractLsb' 0 3 ++ imm.extractLsb' 4 2

/-- h[12] ++ h[6:2] of a stack-relative doubleword load from uimm[8:3]. -/
def fieldLoadSpD (imm : BitVec 6) : BitVec 6 := imm.extractLsb' 2 1 ++ imm.extractLsb' 0 2 ++ imm.extractLsb' 3 3

/-- h[12] ++ h[6:2] of a stack-relative quadword load from uimm[9:4]. -/
def fieldLoadSpQ (imm : BitVec 6) : BitVec 6 := imm.extractLsb' 1 1 ++ imm.extractLsb' 0 1 ++ imm.extractLsb' 2 4

/-- h[12:7] of a stack-relative word store from uimm[7:2]. -/
def fieldStoreSpW (imm : BitVec 6) : BitVec 6 := imm.extractLsb' 0 4 ++ imm.extractLsb' 4 2

/-- h[12:7] of a stack-relative doubleword store from uimm[8:3]. -/
def fieldStoreSpD (imm : BitVec 6) : BitVec 6 := imm.extractLsb' 0 3 ++ imm.extractLsb' 3 3

/-- h[12:7] of a stack-relative quadword store from uimm[9:4]. -/
def fieldStoreSpQ (imm : BitVec 6) : BitVec 6 := imm.extractLsb' 0 2 ++ imm.extractLsb' 2 4

/-- The code of an instruction (the match and mask of its row with its operands put in). -/
def encode : Instr → Code
  | .lui rd imm => encU imm rd 0b0110111#7
  | .auipc rd imm => encU imm rd 0b0010111#7
  | .addi rd rs1 imm => encI imm rs1 0b000#3 rd 0b0010011#7
  | .slti rd rs1 imm => encI imm rs1 0b010#3 rd 0b0010011#7
  | .sltiu rd rs1 imm => encI imm rs1 0b011#3 rd 0b0010011#7
  | .xori rd rs1 imm => encI imm rs1 0b100#3 rd 0b0010011#7
  | .ori rd rs1 imm => encI imm rs1 0b110#3 rd 0b0010011#7
  | .andi rd rs1 imm => encI imm rs1 0b111#3 rd 0b0010011#7
  | .slli rd rs1 shamt => encShift 0b000000#6 shamt rs1 0b001#3 rd
  | .srli rd rs1 shamt => encShift 0b000000#6 shamt rs1 0b101#3 rd
  | .srai rd rs1 shamt => encShift 0b010000#6 shamt rs1 0b101#3 rd
  | .add rd rs1 rs2 => encR 0b0000000#7 rs2 rs1 0b000#3 rd 0b0110011#7
  | .sub rd rs1 rs2 => encR 0b0100000#7 rs2 rs1 0b000#3 rd 0b0110011#7
  | .sll rd rs1 rs2 => encR 0b0000000#7 rs2 rs1 0b001#3 rd 0b0110011#7
  | .slt rd rs1 rs2 => encR 0b0000000#7 rs2 rs1 0b010#3 rd 0b0110011#7
  | .sltu rd rs1 rs2 => encR 0b0000000#7 rs2 rs1 0b011#3 rd 0b0110011#7
  | .xor rd rs1 rs2 => encR 0b0000000#7 rs2 rs1 0b100#3 rd 0b0110011#7
  | .srl rd rs1 rs2 => encR 0b0000000#7 rs2 rs1 0b101#3 rd 0b0110011#7
  | .sra rd rs1 rs2 => encR 0b0100000#7 rs2 rs1 0b101#3 rd 0b0110011#7
  | .or rd rs1 rs2 => encR 0b0000000#7 rs2 rs1 0b110#3 rd 0b0110011#7
  | .and rd rs1 rs2 => encR 0b0000000#7 rs2 rs1 0b111#3 rd 0b0110011#7
  | .jal rd offset => encJ offset rd
  | .jalr rd rs1 imm => encI imm rs1 0b000#3 rd 0b1100111#7
  | .beq rs1 rs2 offset => encB offset rs2 rs1 0b000#3
  | .bne rs1 rs2 offset => encB offset rs2 rs1 0b001#3
  | .blt rs1 rs2 offset => encB offset rs2 rs1 0b100#3
  | .bge rs1 rs2 offset => encB offset rs2 rs1 0b101#3
  | .bltu rs1 rs2 offset => encB offset rs2 rs1 0b110#3
  | .bgeu rs1 rs2 offset => encB offset rs2 rs1 0b111#3
  | .lb rd rs1 imm => encI imm rs1 0b000#3 rd 0b0000011#7
  | .lh rd rs1 imm => encI imm rs1 0b001#3 rd 0b0000011#7
  | .lw rd rs1 imm => encI imm rs1 0b010#3 rd 0b0000011#7
  | .lbu rd rs1 imm => encI imm rs1 0b100#3 rd 0b0000011#7
  | .lhu rd rs1 imm => encI imm rs1 0b101#3 rd 0b0000011#7
  | .sb rs1 rs2 imm => encS imm rs2 rs1 0b000#3 0b0100011#7
  | .sh rs1 rs2 imm => encS imm rs2 rs1 0b001#3 0b0100011#7
  | .sw rs1 rs2 imm => encS imm rs2 rs1 0b010#3 0b0100011#7
  | .fence fm pred succ rs1 rd => encFence fm pred succ rs1 rd
  | .fenceTso => encFence 0b1000#4 0b0011#4 0b0011#4 0#5 0#5
  | .pause => encFence 0b0000#4 0b0001#4 0b0000#4 0#5 0#5
  | .fenceI imm rs1 rd => encI imm rs1 0b001#3 rd 0b0001111#7
  | .ecall => encI 0#12 0#5 0b000#3 0#5 0b1110011#7
  | .ebreak => encI 1#12 0#5 0b000#3 0#5 0b1110011#7
  | .lwu rd rs1 imm => encI imm rs1 0b110#3 rd 0b0000011#7
  | .ld rd rs1 imm => encI imm rs1 0b011#3 rd 0b0000011#7
  | .sd rs1 rs2 imm => encS imm rs2 rs1 0b011#3 0b0100011#7
  | .addiw rd rs1 imm => encI imm rs1 0b000#3 rd 0b0011011#7
  | .slliw rd rs1 shamt => encR 0b0000000#7 shamt rs1 0b001#3 rd 0b0011011#7
  | .srliw rd rs1 shamt => encR 0b0000000#7 shamt rs1 0b101#3 rd 0b0011011#7
  | .sraiw rd rs1 shamt => encR 0b0100000#7 shamt rs1 0b101#3 rd 0b0011011#7
  | .addw rd rs1 rs2 => encR 0b0000000#7 rs2 rs1 0b000#3 rd 0b0111011#7
  | .subw rd rs1 rs2 => encR 0b0100000#7 rs2 rs1 0b000#3 rd 0b0111011#7
  | .sllw rd rs1 rs2 => encR 0b0000000#7 rs2 rs1 0b001#3 rd 0b0111011#7
  | .srlw rd rs1 rs2 => encR 0b0000000#7 rs2 rs1 0b101#3 rd 0b0111011#7
  | .sraw rd rs1 rs2 => encR 0b0100000#7 rs2 rs1 0b101#3 rd 0b0111011#7
  | .mul rd rs1 rs2 => encR 0b0000001#7 rs2 rs1 0b000#3 rd 0b0110011#7
  | .mulh rd rs1 rs2 => encR 0b0000001#7 rs2 rs1 0b001#3 rd 0b0110011#7
  | .mulhsu rd rs1 rs2 => encR 0b0000001#7 rs2 rs1 0b010#3 rd 0b0110011#7
  | .mulhu rd rs1 rs2 => encR 0b0000001#7 rs2 rs1 0b011#3 rd 0b0110011#7
  | .div rd rs1 rs2 => encR 0b0000001#7 rs2 rs1 0b100#3 rd 0b0110011#7
  | .divu rd rs1 rs2 => encR 0b0000001#7 rs2 rs1 0b101#3 rd 0b0110011#7
  | .rem rd rs1 rs2 => encR 0b0000001#7 rs2 rs1 0b110#3 rd 0b0110011#7
  | .remu rd rs1 rs2 => encR 0b0000001#7 rs2 rs1 0b111#3 rd 0b0110011#7
  | .mulw rd rs1 rs2 => encR 0b0000001#7 rs2 rs1 0b000#3 rd 0b0111011#7
  | .divw rd rs1 rs2 => encR 0b0000001#7 rs2 rs1 0b100#3 rd 0b0111011#7
  | .divuw rd rs1 rs2 => encR 0b0000001#7 rs2 rs1 0b101#3 rd 0b0111011#7
  | .remw rd rs1 rs2 => encR 0b0000001#7 rs2 rs1 0b110#3 rd 0b0111011#7
  | .remuw rd rs1 rs2 => encR 0b0000001#7 rs2 rs1 0b111#3 rd 0b0111011#7
  | .lrW rd rs1 aq rl => encAmo 0b00010#5 aq rl 0#5 rs1 0b010#3 rd
  | .scW rd rs1 rs2 aq rl => encAmo 0b00011#5 aq rl rs2 rs1 0b010#3 rd
  | .amoswapW rd rs1 rs2 aq rl => encAmo 0b00001#5 aq rl rs2 rs1 0b010#3 rd
  | .amoaddW rd rs1 rs2 aq rl => encAmo 0b00000#5 aq rl rs2 rs1 0b010#3 rd
  | .amoxorW rd rs1 rs2 aq rl => encAmo 0b00100#5 aq rl rs2 rs1 0b010#3 rd
  | .amoandW rd rs1 rs2 aq rl => encAmo 0b01100#5 aq rl rs2 rs1 0b010#3 rd
  | .amoorW rd rs1 rs2 aq rl => encAmo 0b01000#5 aq rl rs2 rs1 0b010#3 rd
  | .amominW rd rs1 rs2 aq rl => encAmo 0b10000#5 aq rl rs2 rs1 0b010#3 rd
  | .amomaxW rd rs1 rs2 aq rl => encAmo 0b10100#5 aq rl rs2 rs1 0b010#3 rd
  | .amominuW rd rs1 rs2 aq rl => encAmo 0b11000#5 aq rl rs2 rs1 0b010#3 rd
  | .amomaxuW rd rs1 rs2 aq rl => encAmo 0b11100#5 aq rl rs2 rs1 0b010#3 rd
  | .lrD rd rs1 aq rl => encAmo 0b00010#5 aq rl 0#5 rs1 0b011#3 rd
  | .scD rd rs1 rs2 aq rl => encAmo 0b00011#5 aq rl rs2 rs1 0b011#3 rd
  | .amoswapD rd rs1 rs2 aq rl => encAmo 0b00001#5 aq rl rs2 rs1 0b011#3 rd
  | .amoaddD rd rs1 rs2 aq rl => encAmo 0b00000#5 aq rl rs2 rs1 0b011#3 rd
  | .amoxorD rd rs1 rs2 aq rl => encAmo 0b00100#5 aq rl rs2 rs1 0b011#3 rd
  | .amoandD rd rs1 rs2 aq rl => encAmo 0b01100#5 aq rl rs2 rs1 0b011#3 rd
  | .amoorD rd rs1 rs2 aq rl => encAmo 0b01000#5 aq rl rs2 rs1 0b011#3 rd
  | .amominD rd rs1 rs2 aq rl => encAmo 0b10000#5 aq rl rs2 rs1 0b011#3 rd
  | .amomaxD rd rs1 rs2 aq rl => encAmo 0b10100#5 aq rl rs2 rs1 0b011#3 rd
  | .amominuD rd rs1 rs2 aq rl => encAmo 0b11000#5 aq rl rs2 rs1 0b011#3 rd
  | .amomaxuD rd rs1 rs2 aq rl => encAmo 0b11100#5 aq rl rs2 rs1 0b011#3 rd
  | .csrrw rd rs1 csr => encI csr rs1 0b001#3 rd 0b1110011#7
  | .csrrs rd rs1 csr => encI csr rs1 0b010#3 rd 0b1110011#7
  | .csrrc rd rs1 csr => encI csr rs1 0b011#3 rd 0b1110011#7
  | .csrrwi rd uimm csr => encI csr uimm 0b101#3 rd 0b1110011#7
  | .csrrsi rd uimm csr => encI csr uimm 0b110#3 rd 0b1110011#7
  | .csrrci rd uimm csr => encI csr uimm 0b111#3 rd 0b1110011#7
  | .flw rd rs1 imm => encI imm rs1 0b010#3 rd 0b0000111#7
  | .fsw rs1 rs2 imm => encS imm rs2 rs1 0b010#3 0b0100111#7
  | .fmaddS rd rs1 rs2 rs3 rm => encR4 rs3 0b00#2 rs2 rs1 rm rd 0b1000011#7
  | .fmsubS rd rs1 rs2 rs3 rm => encR4 rs3 0b00#2 rs2 rs1 rm rd 0b1000111#7
  | .fnmsubS rd rs1 rs2 rs3 rm => encR4 rs3 0b00#2 rs2 rs1 rm rd 0b1001011#7
  | .fnmaddS rd rs1 rs2 rs3 rm => encR4 rs3 0b00#2 rs2 rs1 rm rd 0b1001111#7
  | .faddS rd rs1 rs2 rm => encR 0b0000000#7 rs2 rs1 rm rd 0b1010011#7
  | .fsubS rd rs1 rs2 rm => encR 0b0000100#7 rs2 rs1 rm rd 0b1010011#7
  | .fmulS rd rs1 rs2 rm => encR 0b0001000#7 rs2 rs1 rm rd 0b1010011#7
  | .fdivS rd rs1 rs2 rm => encR 0b0001100#7 rs2 rs1 rm rd 0b1010011#7
  | .fsqrtS rd rs1 rm => encR 0b0101100#7 0#5 rs1 rm rd 0b1010011#7
  | .fsgnjS rd rs1 rs2 => encR 0b0010000#7 rs2 rs1 0b000#3 rd 0b1010011#7
  | .fsgnjnS rd rs1 rs2 => encR 0b0010000#7 rs2 rs1 0b001#3 rd 0b1010011#7
  | .fsgnjxS rd rs1 rs2 => encR 0b0010000#7 rs2 rs1 0b010#3 rd 0b1010011#7
  | .fminS rd rs1 rs2 => encR 0b0010100#7 rs2 rs1 0b000#3 rd 0b1010011#7
  | .fmaxS rd rs1 rs2 => encR 0b0010100#7 rs2 rs1 0b001#3 rd 0b1010011#7
  | .fcvtWS rd rs1 rm => encR 0b1100000#7 0#5 rs1 rm rd 0b1010011#7
  | .fcvtWUS rd rs1 rm => encR 0b1100000#7 1#5 rs1 rm rd 0b1010011#7
  | .fmvXW rd rs1 => encR 0b1110000#7 0#5 rs1 0b000#3 rd 0b1010011#7
  | .feqS rd rs1 rs2 => encR 0b1010000#7 rs2 rs1 0b010#3 rd 0b1010011#7
  | .fltS rd rs1 rs2 => encR 0b1010000#7 rs2 rs1 0b001#3 rd 0b1010011#7
  | .fleS rd rs1 rs2 => encR 0b1010000#7 rs2 rs1 0b000#3 rd 0b1010011#7
  | .fclassS rd rs1 => encR 0b1110000#7 0#5 rs1 0b001#3 rd 0b1010011#7
  | .fcvtSW rd rs1 rm => encR 0b1101000#7 0#5 rs1 rm rd 0b1010011#7
  | .fcvtSWU rd rs1 rm => encR 0b1101000#7 1#5 rs1 rm rd 0b1010011#7
  | .fmvWX rd rs1 => encR 0b1111000#7 0#5 rs1 0b000#3 rd 0b1010011#7
  | .fcvtLS rd rs1 rm => encR 0b1100000#7 2#5 rs1 rm rd 0b1010011#7
  | .fcvtLUS rd rs1 rm => encR 0b1100000#7 3#5 rs1 rm rd 0b1010011#7
  | .fcvtSL rd rs1 rm => encR 0b1101000#7 2#5 rs1 rm rd 0b1010011#7
  | .fcvtSLU rd rs1 rm => encR 0b1101000#7 3#5 rs1 rm rd 0b1010011#7
  | .fld rd rs1 imm => encI imm rs1 0b011#3 rd 0b0000111#7
  | .fsd rs1 rs2 imm => encS imm rs2 rs1 0b011#3 0b0100111#7
  | .fmaddD rd rs1 rs2 rs3 rm => encR4 rs3 0b01#2 rs2 rs1 rm rd 0b1000011#7
  | .fmsubD rd rs1 rs2 rs3 rm => encR4 rs3 0b01#2 rs2 rs1 rm rd 0b1000111#7
  | .fnmsubD rd rs1 rs2 rs3 rm => encR4 rs3 0b01#2 rs2 rs1 rm rd 0b1001011#7
  | .fnmaddD rd rs1 rs2 rs3 rm => encR4 rs3 0b01#2 rs2 rs1 rm rd 0b1001111#7
  | .faddD rd rs1 rs2 rm => encR 0b0000001#7 rs2 rs1 rm rd 0b1010011#7
  | .fsubD rd rs1 rs2 rm => encR 0b0000101#7 rs2 rs1 rm rd 0b1010011#7
  | .fmulD rd rs1 rs2 rm => encR 0b0001001#7 rs2 rs1 rm rd 0b1010011#7
  | .fdivD rd rs1 rs2 rm => encR 0b0001101#7 rs2 rs1 rm rd 0b1010011#7
  | .fsqrtD rd rs1 rm => encR 0b0101101#7 0#5 rs1 rm rd 0b1010011#7
  | .fsgnjD rd rs1 rs2 => encR 0b0010001#7 rs2 rs1 0b000#3 rd 0b1010011#7
  | .fsgnjnD rd rs1 rs2 => encR 0b0010001#7 rs2 rs1 0b001#3 rd 0b1010011#7
  | .fsgnjxD rd rs1 rs2 => encR 0b0010001#7 rs2 rs1 0b010#3 rd 0b1010011#7
  | .fminD rd rs1 rs2 => encR 0b0010101#7 rs2 rs1 0b000#3 rd 0b1010011#7
  | .fmaxD rd rs1 rs2 => encR 0b0010101#7 rs2 rs1 0b001#3 rd 0b1010011#7
  | .fcvtSD rd rs1 rm => encR 0b0100000#7 1#5 rs1 rm rd 0b1010011#7
  | .fcvtDS rd rs1 rm => encR 0b0100001#7 0#5 rs1 rm rd 0b1010011#7
  | .feqD rd rs1 rs2 => encR 0b1010001#7 rs2 rs1 0b010#3 rd 0b1010011#7
  | .fltD rd rs1 rs2 => encR 0b1010001#7 rs2 rs1 0b001#3 rd 0b1010011#7
  | .fleD rd rs1 rs2 => encR 0b1010001#7 rs2 rs1 0b000#3 rd 0b1010011#7
  | .fclassD rd rs1 => encR 0b1110001#7 0#5 rs1 0b001#3 rd 0b1010011#7
  | .fcvtWD rd rs1 rm => encR 0b1100001#7 0#5 rs1 rm rd 0b1010011#7
  | .fcvtWUD rd rs1 rm => encR 0b1100001#7 1#5 rs1 rm rd 0b1010011#7
  | .fcvtDW rd rs1 rm => encR 0b1101001#7 0#5 rs1 rm rd 0b1010011#7
  | .fcvtDWU rd rs1 rm => encR 0b1101001#7 1#5 rs1 rm rd 0b1010011#7
  | .fcvtLD rd rs1 rm => encR 0b1100001#7 2#5 rs1 rm rd 0b1010011#7
  | .fcvtLUD rd rs1 rm => encR 0b1100001#7 3#5 rs1 rm rd 0b1010011#7
  | .fmvXD rd rs1 => encR 0b1110001#7 0#5 rs1 0b000#3 rd 0b1010011#7
  | .fcvtDL rd rs1 rm => encR 0b1101001#7 2#5 rs1 rm rd 0b1010011#7
  | .fcvtDLU rd rs1 rm => encR 0b1101001#7 3#5 rs1 rm rd 0b1010011#7
  | .fmvDX rd rs1 => encR 0b1111001#7 0#5 rs1 0b000#3 rd 0b1010011#7
  | .flq rd rs1 imm => encI imm rs1 0b100#3 rd 0b0000111#7
  | .fsq rs1 rs2 imm => encS imm rs2 rs1 0b100#3 0b0100111#7
  | .fmaddQ rd rs1 rs2 rs3 rm => encR4 rs3 0b11#2 rs2 rs1 rm rd 0b1000011#7
  | .fmsubQ rd rs1 rs2 rs3 rm => encR4 rs3 0b11#2 rs2 rs1 rm rd 0b1000111#7
  | .fnmsubQ rd rs1 rs2 rs3 rm => encR4 rs3 0b11#2 rs2 rs1 rm rd 0b1001011#7
  | .fnmaddQ rd rs1 rs2 rs3 rm => encR4 rs3 0b11#2 rs2 rs1 rm rd 0b1001111#7
  | .faddQ rd rs1 rs2 rm => encR 0b0000011#7 rs2 rs1 rm rd 0b1010011#7
  | .fsubQ rd rs1 rs2 rm => encR 0b0000111#7 rs2 rs1 rm rd 0b1010011#7
  | .fmulQ rd rs1 rs2 rm => encR 0b0001011#7 rs2 rs1 rm rd 0b1010011#7
  | .fdivQ rd rs1 rs2 rm => encR 0b0001111#7 rs2 rs1 rm rd 0b1010011#7
  | .fsqrtQ rd rs1 rm => encR 0b0101111#7 0#5 rs1 rm rd 0b1010011#7
  | .fsgnjQ rd rs1 rs2 => encR 0b0010011#7 rs2 rs1 0b000#3 rd 0b1010011#7
  | .fsgnjnQ rd rs1 rs2 => encR 0b0010011#7 rs2 rs1 0b001#3 rd 0b1010011#7
  | .fsgnjxQ rd rs1 rs2 => encR 0b0010011#7 rs2 rs1 0b010#3 rd 0b1010011#7
  | .fminQ rd rs1 rs2 => encR 0b0010111#7 rs2 rs1 0b000#3 rd 0b1010011#7
  | .fmaxQ rd rs1 rs2 => encR 0b0010111#7 rs2 rs1 0b001#3 rd 0b1010011#7
  | .fcvtSQ rd rs1 rm => encR 0b0100000#7 3#5 rs1 rm rd 0b1010011#7
  | .fcvtQS rd rs1 rm => encR 0b0100011#7 0#5 rs1 rm rd 0b1010011#7
  | .fcvtDQ rd rs1 rm => encR 0b0100001#7 3#5 rs1 rm rd 0b1010011#7
  | .fcvtQD rd rs1 rm => encR 0b0100011#7 1#5 rs1 rm rd 0b1010011#7
  | .feqQ rd rs1 rs2 => encR 0b1010011#7 rs2 rs1 0b010#3 rd 0b1010011#7
  | .fltQ rd rs1 rs2 => encR 0b1010011#7 rs2 rs1 0b001#3 rd 0b1010011#7
  | .fleQ rd rs1 rs2 => encR 0b1010011#7 rs2 rs1 0b000#3 rd 0b1010011#7
  | .fclassQ rd rs1 => encR 0b1110011#7 0#5 rs1 0b001#3 rd 0b1010011#7
  | .fcvtWQ rd rs1 rm => encR 0b1100011#7 0#5 rs1 rm rd 0b1010011#7
  | .fcvtWUQ rd rs1 rm => encR 0b1100011#7 1#5 rs1 rm rd 0b1010011#7
  | .fcvtQW rd rs1 rm => encR 0b1101011#7 0#5 rs1 rm rd 0b1010011#7
  | .fcvtQWU rd rs1 rm => encR 0b1101011#7 1#5 rs1 rm rd 0b1010011#7
  | .fcvtLQ rd rs1 rm => encR 0b1100011#7 2#5 rs1 rm rd 0b1010011#7
  | .fcvtLUQ rd rs1 rm => encR 0b1100011#7 3#5 rs1 rm rd 0b1010011#7
  | .fcvtQL rd rs1 rm => encR 0b1101011#7 2#5 rs1 rm rd 0b1010011#7
  | .fcvtQLU rd rs1 rm => encR 0b1101011#7 3#5 rs1 rm rd 0b1010011#7
  | .illegalAllZero => .half 0#16
  | .cAddi4spn rd imm => encCIW imm rd
  | .cFld rd rs1 imm => encCD 0b001#3 imm rs1 rd
  | .cLw rd rs1 imm => encCW 0b010#3 imm rs1 rd
  | .cFlw rd rs1 imm => encCW 0b011#3 imm rs1 rd
  | .cLd rd rs1 imm => encCD 0b011#3 imm rs1 rd
  | .cFsd rs1 rs2 imm => encCD 0b101#3 imm rs1 rs2
  | .cSw rs1 rs2 imm => encCW 0b110#3 imm rs1 rs2
  | .cFsw rs1 rs2 imm => encCW 0b111#3 imm rs1 rs2
  | .cSd rs1 rs2 imm => encCD 0b111#3 imm rs1 rs2
  | .cNop imm => encCI 0b000#3 imm 0#5 0b01#2
  | .cAddi rd imm => encCI 0b000#3 imm rd 0b01#2
  | .cJal offset => encCJ 0b001#3 offset
  | .cAddiw rd imm => encCI 0b001#3 imm rd 0b01#2
  | .cLi rd imm => encCI 0b010#3 imm rd 0b01#2
  | .cAddi16sp imm => encCI 0b011#3 (field16sp imm) 2#5 0b01#2
  | .cLui rd imm => encCI 0b011#3 imm rd 0b01#2
  | .cSrli rd shamt => encCBAlu 0b00#2 shamt rd
  | .cSrai rd shamt => encCBAlu 0b01#2 shamt rd
  | .cAndi rd imm => encCBAlu 0b10#2 imm rd
  | .cSub rd rs2 => encCA 0b100011#6 rd 0b00#2 rs2
  | .cXor rd rs2 => encCA 0b100011#6 rd 0b01#2 rs2
  | .cOr rd rs2 => encCA 0b100011#6 rd 0b10#2 rs2
  | .cAnd rd rs2 => encCA 0b100011#6 rd 0b11#2 rs2
  | .cSubw rd rs2 => encCA 0b100111#6 rd 0b00#2 rs2
  | .cAddw rd rs2 => encCA 0b100111#6 rd 0b01#2 rs2
  | .cJ offset => encCJ 0b101#3 offset
  | .cBeqz rs1 offset => encCB 0b110#3 offset rs1
  | .cBnez rs1 offset => encCB 0b111#3 offset rs1
  | .cSlli rd shamt => encCI 0b000#3 shamt rd 0b10#2
  | .cFldsp rd imm => encCI 0b001#3 (fieldLoadSpD imm) rd 0b10#2
  | .cLwsp rd imm => encCI 0b010#3 (fieldLoadSpW imm) rd 0b10#2
  | .cFlwsp rd imm => encCI 0b011#3 (fieldLoadSpW imm) rd 0b10#2
  | .cLdsp rd imm => encCI 0b011#3 (fieldLoadSpD imm) rd 0b10#2
  | .cJr rs1 => encCR 0b1000#4 rs1 0#5
  | .cMv rd rs2 => encCR 0b1000#4 rd rs2
  | .cEbreak => encCR 0b1001#4 0#5 0#5
  | .cJalr rs1 => encCR 0b1001#4 rs1 0#5
  | .cAdd rd rs2 => encCR 0b1001#4 rd rs2
  | .cFsdsp rs2 imm => encCSS 0b101#3 (fieldStoreSpD imm) rs2
  | .cSwsp rs2 imm => encCSS 0b110#3 (fieldStoreSpW imm) rs2
  | .cFswsp rs2 imm => encCSS 0b111#3 (fieldStoreSpW imm) rs2
  | .cSdsp rs2 imm => encCSS 0b111#3 (fieldStoreSpD imm) rs2
  | .cSlli64 rd => encCI 0b000#3 0#6 rd 0b10#2
  | .cSrli64 rd => encCBAlu 0b00#2 0#6 rd
  | .cSrai64 rd => encCBAlu 0b01#2 0#6 rd
  | .cLq rd rs1 imm => encCQ 0b001#3 imm rs1 rd
  | .cSq rs1 rs2 imm => encCQ 0b101#3 imm rs1 rs2
  | .cLqsp rd imm => encCI 0b001#3 (fieldLoadSpQ imm) rd 0b10#2
  | .cSqsp rs2 imm => encCSS 0b101#3 (fieldStoreSpQ imm) rs2

/-- The length in bytes of an instruction: the `ilen` of 10_state.md R25. -/
def Instr.ilen (i : Instr) : Nat := (encode i).ilen

end Sys2Proof
end

