-- ==== Sys2Proof/Machine/State.lean ====
section
/-! DEFINITION. The state of the machine: one hart, its memory and the configuration it runs in, as plain data
(spec 10_state.md; 20_memory.md; 60_exceptions.md R605). INVENTORY.md lists every field with its rule. -/

namespace Sys2Proof.Machine

/-- What an LR registers (10_state.md R48, 44_a.md R333): the reservation set, as the union of its spans, and the bytes
it read, `[byteBase, byteBase + byteCount)`; addresses are taken modulo 2^XLEN. -/
structure Reservation where
  set : List Span
  byteBase : Nat
  byteCount : Nat
deriving DecidableEq, Repr

/-- The constrained LR/SC loop the hart is in (44_a.md R345), which the guarantee of R346 is about. -/
structure RetryLoop where
  /-- the address of its LR -/
  lrPc : Word
  /-- the effective address and the width of the latest LR -/
  ea : Word
  n : Nat
  /-- the lowest and the highest address of an instruction executed in it -/
  first : Word
  last : Word
  /-- its SC has failed and its LR is yet to be repeated -/
  retrying : Bool
  /-- how many of its SCs have failed -/
  failures : Nat
  /-- how many the environment may fail after the first -/
  patience : Nat
deriving DecidableEq, Repr

/-- `TrapRecord` (60_exceptions.md R605): cause, address of the raising instruction (R607), recorded value (R609) and
the length in bytes of the raising instruction. -/
structure TrapRecord where
  cause : Cause
  epc : Word
  tval : Word
  ilen : Nat
deriving DecidableEq, Repr

/-- `HartStatus` (R605). -/
inductive HartStatus where
  | running
  | trapped (r : TrapRecord)
deriving DecidableEq, Repr

/-- The whole state. -/
structure State where
  /-- BASE, EXT and the parameters of the environment; no step changes it (00_scope.md R6; log 1) -/
  cfg : Config
  /-- `x0` to `x31` (10_state.md R20); the cell of `x0` is never read nor written (R21) -/
  x : Vector Word 32
  /-- `pc` (R24) -/
  pc : Word
  /-- `f0` to `f31` (R30) -/
  f : Vector FWord 32
  /-- `fcsr[7:0]`: frm in bits 7 to 5, NV DZ OF UF NX in bits 4 to 0 (R35); bits 31 to 8 read zero (R38) -/
  fcsr : BitVec 8
  /-- `cycle` (R39) -/
  cycle : BitVec 64
  /-- `time` (R40) -/
  time : BitVec 64
  /-- `instret` (R41) -/
  instret : BitVec 64
  /-- `hpmcounter3` to `hpmcounter31`, at index 0 to 28 (R43) -/
  hpm : Vector (BitVec 64) 29
  /-- the reservation, if one is held (R48) -/
  reservation : Option Reservation
  /-- memory, in canonical form: see `Memory.wf` in Ops.lean (20_memory.md R60) -/
  memory : List Host.Cell
  /-- the older values that a fetch may still return, by address (R50, 20_memory.md R78) -/
  stale : List Host.Cell
  /-- the output trace of stores to I/O regions, oldest first: one entry for each memory operation, its bytes in I/O
  regions (60_exceptions.md R627, 20_memory.md R71) -/
  ioTrace : List (List Host.Cell)
  /-- Running or Trapped (60_exceptions.md R605) -/
  status : HartStatus
  /-- the MODEL's own field: the constrained LR/SC loop the hart is in, followed only where SC_MAY_FAIL is an oracle
  (44_a.md R346; log 16) -/
  loop : Option RetryLoop
  /-- the MODEL's own field: the hart has made a fetch since it was launched (70_reset_and_hazards.md R646; log 34) -/
  launched : Bool
  /-- the MODEL's own field: how many free values have been drawn (log 28) -/
  draws : Nat
deriving DecidableEq, Repr

/-- The faults of a step. Every exception of the spec is a trap, a next state (60_exceptions.md R605, R623). -/
inductive Fault where
  /-- Raised by `step` when the `pc` of a running hart that has been launched is not a multiple of IALIGN/8. The spec
  has no such state (10_state.md R26) and no step reaches one (log 12). Safe: the model stops. -/
  | misalignedPc
deriving DecidableEq, Repr

/-- The refusals of a step. -/
inductive Refusal where
  /-- Raised by an arm of `exec` whose instruction has no meaning yet. Safe: the model stops. -/
  | notModelled (mnemonic : String)
  /-- Raised by the first step of a hart whose RESET_PC is not a multiple of IALIGN/8: "a misaligned `RESET_PC` is
  refused" (70_reset_and_hazards.md R646). Safe: the model stops. -/
  | misalignedResetPc
  /-- Raised by `step` when the environment's `resume(f)` sets a `pc` that is not a multiple of IALIGN/8: "`f` is
  refused otherwise" (60_exceptions.md R607). Safe: the model stops. -/
  | misalignedResume
deriving DecidableEq, Repr

/-- The answer of a step and of a meaning. -/
abbrev Result := Host.Outcome State Fault Refusal

/-- The machine right after reset (10_state.md R51; 70_reset_and_hazards.md R640 to R644): Running, `pc` at RESET_PC, no
reservation, no stale candidates. Registers, `fcsr` and counters, which the spec leaves unspecified, hold zero
(DESIGN CHOICE, logs 3 to 6); memory lists nothing (log 7). -/
def State.reset : State :=
  { cfg := Config.reset
    x := Vector.replicate 32 0#64
    pc := Config.resetPc
    f := Vector.replicate 32 0#128
    fcsr := 0#8
    cycle := 0#64
    time := 0#64
    instret := 0#64
    hpm := Vector.replicate 29 0#64
    reservation := none
    memory := []
    stale := []
    ioTrace := []
    status := .running
    loop := none
    launched := false
    draws := 0 }

end Sys2Proof.Machine
end

