-- ==== Sys2Proof/Machine/Flags.lean ====
section
/-! DEFINITION. The floating-point status: the five accrued flags, the views of `fcsr`, and the effective rounding mode
(spec 10_state.md R35 to R38; 46_f.md R403, R404, R408). The integer ISA has no flags (R27). -/

namespace Sys2Proof.Machine

/-- The five flags in the order of `fcsr[4:0]` (10_state.md R37). -/
abbrev FFlags := BitVec 5

def flagNone : FFlags := 0b00000#5
def flagNX : FFlags := 0b00001#5
def flagUF : FFlags := 0b00010#5
def flagOF : FFlags := 0b00100#5
def flagDZ : FFlags := 0b01000#5
def flagNV : FFlags := 0b10000#5

/-- NV where the condition holds, else no flag. -/
def nvIf (b : Bool) : FFlags := if b then flagNV else flagNone

/-- NX where the condition holds, else no flag. -/
def nxIf (b : Bool) : FFlags := if b then flagNX else flagNone

/-- The five rounding modes (10_state.md R36). -/
inductive Rounding where
  | rne
  | rtz
  | rdn
  | rup
  | rmm
deriving DecidableEq, Repr

/-- The rounding mode a 3-bit code names; 101, 110 and 111 name none (R36). -/
def Rounding.ofBits (m : BitVec 3) : Option Rounding :=
  match m.toNat with
  | 0 => some .rne
  | 1 => some .rtz
  | 2 => some .rdn
  | 3 => some .rup
  | 4 => some .rmm
  | _ => none

/-- `frm` = `fcsr[7:5]` (R36). -/
def State.frm (s : State) : BitVec 3 := s.fcsr.extractLsb' 5 3

/-- `fflags` = `fcsr[4:0]` (R37). -/
def State.fflags (s : State) : FFlags := s.fcsr.extractLsb' 0 5

def State.setFrm (s : State) (m : BitVec 3) : State := { s with fcsr := m ++ s.fflags }

def State.setFflags (s : State) (fl : FFlags) : State := { s with fcsr := s.frm ++ fl }

def State.setFcsr (s : State) (v : BitVec 8) : State := { s with fcsr := v }

/-- `accrue(fl)`: flags are only ever ORed in (46_f.md R408; 10_state.md R28). -/
def State.accrue (s : State) (fl : FFlags) : State := s.setFflags (s.fflags ||| fl)

/-- `RM(inst)`: the effective rounding mode, none where it is reserved (46_f.md R403, R404). -/
def State.rounding (s : State) (rm : BitVec 3) : Option Rounding :=
  Rounding.ofBits (if rm = 0b111#3 then s.frm else rm)

end Sys2Proof.Machine
end

