-- ==== Sys2Proof/Machine/Float.lean ====
section
/-! DEFINITION. IEEE 754-2008 arithmetic on bit patterns, exact in the integers and rounded once (spec 46_f.md R401 to
R445; 47_d.md R471). The spec marks the content of the standard as general knowledge (93_implementation_defined.md G7;
log 24). -/

namespace Sys2Proof.Machine

/-- The three formats (46_f.md R401). -/
inductive Fmt where
  | s
  | d
  | q
deriving DecidableEq, Repr

namespace Fmt

/-- `w` (R401). -/
def width : Fmt → Nat
  | .s => 32
  | .d => 64
  | .q => 128

/-- Exponent bits `E` (R401). -/
def expBits : Fmt → Nat
  | .s => 8
  | .d => 11
  | .q => 15

/-- Fraction bits `T` (R401). -/
def fracBits : Fmt → Nat
  | .s => 23
  | .d => 52
  | .q => 112

/-- `bias` = `emax` (R401). -/
def bias : Fmt → Nat
  | .s => 127
  | .d => 1023
  | .q => 16383

/-- `emin = 1 - bias` (R401). -/
def emin (F : Fmt) : Int := 1 - (F.bias : Int)

/-- A pattern from its three fields. -/
def pack (F : Fmt) (neg : Bool) (e t : Nat) : BitVec F.width :=
  BitVec.ofNat F.width ((if neg then 2 ^ (F.width - 1) else 0) + e * 2 ^ F.fracBits + t)

/-- The canonical NaN (R401, R406). -/
def cNaN (F : Fmt) : BitVec F.width := F.pack false (2 ^ F.expBits - 1) (2 ^ (F.fracBits - 1))

def infinity (F : Fmt) (neg : Bool) : BitVec F.width := F.pack neg (2 ^ F.expBits - 1) 0

def zero (F : Fmt) (neg : Bool) : BitVec F.width := F.pack neg 0 0

/-- `maxfin` with a sign (R402). -/
def maxFinite (F : Fmt) (neg : Bool) : BitVec F.width := F.pack neg (2 ^ F.expBits - 2) (2 ^ F.fracBits - 1)

/-- The sign bit. -/
def signBit (F : Fmt) (b : BitVec F.width) : Bool := b.msb

/-- `neg_F`: the pattern with its sign bit inverted (R402). -/
def negate (F : Fmt) (b : BitVec F.width) : BitVec F.width := b ^^^ BitVec.ofNat F.width (2 ^ (F.width - 1))

/-- A pattern with another sign bit. -/
def withSign (F : Fmt) (b : BitVec F.width) (neg : Bool) : BitVec F.width :=
  if b.msb = neg then b else F.negate b

end Fmt

/-- What a pattern stands for (R402); a finite non-zero value is (-1)^neg * m * 2^e with m > 0. -/
inductive FValue where
  | nan (signaling : Bool)
  | infinite (neg : Bool)
  | zero (neg : Bool)
  | subnormal (neg : Bool) (m : Nat) (e : Int)
  | normal (neg : Bool) (m : Nat) (e : Int)
deriving DecidableEq, Repr

/-- The class and value of a pattern (R402). -/
def Fmt.value (F : Fmt) (b : BitVec F.width) : FValue :=
  let e := b.toNat / 2 ^ F.fracBits % 2 ^ F.expBits
  let t := b.toNat % 2 ^ F.fracBits
  if e = 2 ^ F.expBits - 1 then
    if t = 0 then .infinite b.msb else .nan (decide (t < 2 ^ (F.fracBits - 1)))
  else if e = 0 then
    if t = 0 then .zero b.msb else .subnormal b.msb t (F.emin - F.fracBits)
  else .normal b.msb (2 ^ F.fracBits + t) ((e : Int) - F.bias - F.fracBits)

namespace FValue

def isNaN : FValue → Bool
  | .nan _ => true
  | .infinite _ | .zero _ | .subnormal .. | .normal .. => false

def isSignaling : FValue → Bool
  | .nan sig => sig
  | .infinite _ | .zero _ | .subnormal .. | .normal .. => false

def isInfinite : FValue → Bool
  | .infinite _ => true
  | .nan _ | .zero _ | .subnormal .. | .normal .. => false

def isZero : FValue → Bool
  | .zero _ => true
  | .nan _ | .infinite _ | .subnormal .. | .normal .. => false

def neg : FValue → Bool
  | .nan _ => false
  | .infinite n | .zero n | .subnormal n _ _ | .normal n _ _ => n

/-- The magnitude of a finite value as significand and exponent; a zero counts 0 (R413). -/
def magnitude : FValue → Nat × Int
  | .subnormal _ m e | .normal _ m e => (m, e)
  | .nan _ | .infinite _ | .zero _ => (0, 0)

/-- The signed significand of a finite value. -/
def signed (v : FValue) : Int := if v.neg then -(v.magnitude.1 : Int) else v.magnitude.1

def exponent (v : FValue) : Int := v.magnitude.2

end FValue

/-- `n * 2^e` as a multiple of `2^g`, for `g ≤ e`. -/
def scaleTo (n : Int) (e g : Int) : Int := n * ((2 ^ (e - g).toNat : Nat) : Int)

/-! ### Rounding (R405) -/

/-- Whether the magnitude moves up: `odd` is the parity of the truncated quotient, `cmp` compares the remainder with
half a grid step, `exact` says that there is no remainder (R405 step 1). -/
def Rounding.up (rm : Rounding) (neg odd exact : Bool) (cmp : Ordering) : Bool :=
  if exact then false
  else match rm with
    | .rne => cmp == .gt || (cmp == .eq && odd)
    | .rtz => false
    | .rdn => neg
    | .rup => !neg
    | .rmm => cmp != .lt

/-- `rnd(rm, ±m * 2^e, 2^g)` in units of `2^g`, as a magnitude, and whether it differs from the operand (R405
step 1). -/
def roundToGrid (rm : Rounding) (neg : Bool) (m : Nat) (e g : Int) : Nat × Bool :=
  if g ≤ e then (m * 2 ^ (e - g).toNat, false)
  else
    let step := 2 ^ (g - e).toNat
    let k := m / step
    let r := m % step
    (if rm.up neg (k % 2 == 1) (r == 0) (compare (2 * r) step) then k + 1 else k, r != 0)

/-- The overflow result (R405 step 3). -/
def Fmt.overflow (F : Fmt) (rm : Rounding) (neg : Bool) : BitVec F.width :=
  let toInfinity := match rm with
    | .rne | .rmm => true
    | .rtz => false
    | .rdn => neg
    | .rup => !neg
  if toInfinity then F.infinity neg else F.maxFinite neg

/-- `Round_F(rm, ±m * 2^e)` for `m > 0` (R405), with tininess detected after rounding (R409). -/
def Fmt.round (F : Fmt) (rm : Rounding) (neg : Bool) (m : Nat) (e : Int) : BitVec F.width × FFlags :=
  let top : Int := e + (m.log2 : Int)
  let (k, inexact) := roundToGrid rm neg m e (top - F.fracBits)
  let carry := k = 2 ^ (F.fracBits + 1)
  let ruTop : Int := if carry then top + 1 else top
  if (F.bias : Int) < ruTop then (F.overflow rm neg, flagOF ||| flagNX)
  else if F.emin ≤ ruTop then
    (F.pack neg (ruTop + F.bias).toNat (if carry then 0 else k - 2 ^ F.fracBits), nxIf inexact)
  else
    let (k2, inexact2) := roundToGrid rm neg m e (F.emin - F.fracBits)
    (F.pack neg 0 k2, if inexact2 then flagUF ||| flagNX else flagNone)

/-- `Round_F` of a signed sum, where an exact zero takes the sign that R413 and R419 give it. -/
def Fmt.roundSum (F : Fmt) (rm : Rounding) (zeroNeg : Bool) (n : Int) (e : Int) : BitVec F.width × FFlags :=
  if n = 0 then (F.zero zeroNeg, flagNone) else F.round rm (decide (n < 0)) n.natAbs e

/-- The sign of an exact zero sum of opposite signs: -0 only in RDN (R413). -/
def Rounding.zeroNeg (rm : Rounding) : Bool := rm == .rdn

/-! ### Arithmetic (R413, R419) -/

/-- The answer of an operation with a NaN operand (R406, R413 line 1). -/
def Fmt.nanResult (F : Fmt) (signaling : Bool) : BitVec F.width × FFlags := (F.cNaN, nvIf signaling)

/-- `fp_add` (R413). -/
def Fmt.add (F : Fmt) (rm : Rounding) (a b : BitVec F.width) : BitVec F.width × FFlags :=
  let va := F.value a
  let vb := F.value b
  if va.isNaN || vb.isNaN then F.nanResult (va.isSignaling || vb.isSignaling)
  else if va.isInfinite && vb.isInfinite then
    if va.neg = vb.neg then (F.infinity va.neg, flagNone) else (F.cNaN, flagNV)
  else if va.isInfinite then (F.infinity va.neg, flagNone)
  else if vb.isInfinite then (F.infinity vb.neg, flagNone)
  else if va.isZero && vb.isZero then
    (F.zero (if va.neg = vb.neg then va.neg else rm.zeroNeg), flagNone)
  else
    let g := min va.exponent vb.exponent
    F.roundSum rm rm.zeroNeg (scaleTo va.signed va.exponent g + scaleTo vb.signed vb.exponent g) g

/-- `fp_sub` (R413): addition of the negated second operand. -/
def Fmt.sub (F : Fmt) (rm : Rounding) (a b : BitVec F.width) : BitVec F.width × FFlags := F.add rm a (F.negate b)

/-- `fp_mul` (R413). -/
def Fmt.mul (F : Fmt) (rm : Rounding) (a b : BitVec F.width) : BitVec F.width × FFlags :=
  let va := F.value a
  let vb := F.value b
  let neg := va.neg != vb.neg
  if va.isNaN || vb.isNaN then F.nanResult (va.isSignaling || vb.isSignaling)
  else if (va.isInfinite && vb.isZero) || (va.isZero && vb.isInfinite) then (F.cNaN, flagNV)
  else if va.isInfinite || vb.isInfinite then (F.infinity neg, flagNone)
  else if va.isZero || vb.isZero then (F.zero neg, flagNone)
  else F.round rm neg (va.magnitude.1 * vb.magnitude.1) (va.exponent + vb.exponent)

/-- The quotient `m1 / m2 * 2^e` rounded once: the integer quotient carries more than precision + 1 bits, and its last
bit stands for a non-zero remainder. -/
def Fmt.roundQuotient (F : Fmt) (rm : Rounding) (neg : Bool) (m1 m2 : Nat) (e : Int) : BitVec F.width × FFlags :=
  let sh := 2 * F.fracBits + 5
  let n := m1 * 2 ^ sh
  F.round rm neg (2 * (n / m2) + (if n % m2 = 0 then 0 else 1)) (e - sh - 1)

/-- `fp_div` (R413). -/
def Fmt.div (F : Fmt) (rm : Rounding) (a b : BitVec F.width) : BitVec F.width × FFlags :=
  let va := F.value a
  let vb := F.value b
  let neg := va.neg != vb.neg
  if va.isNaN || vb.isNaN then F.nanResult (va.isSignaling || vb.isSignaling)
  else if (va.isInfinite && vb.isInfinite) || (va.isZero && vb.isZero) then (F.cNaN, flagNV)
  else if va.isInfinite then (F.infinity neg, flagNone)
  else if vb.isInfinite then (F.zero neg, flagNone)
  else if vb.isZero then (F.infinity neg, flagDZ)
  else if va.isZero then (F.zero neg, flagNone)
  else F.roundQuotient rm neg va.magnitude.1 vb.magnitude.1 (va.exponent - vb.exponent)

/-- The greatest `r + t` with `t < 2^k` and `(r + t)^2 ≤ n`, bit by bit. -/
def isqrtLoop (n : Nat) : Nat → Nat → Nat
  | 0, r => r
  | k + 1, r => isqrtLoop n k (if (r + 2 ^ k) * (r + 2 ^ k) ≤ n then r + 2 ^ k else r)

/-- The integer square root. -/
def isqrt (n : Nat) : Nat := isqrtLoop n (n.log2 / 2 + 1) 0

/-- `sqrt(m * 2^e)` rounded once, as `roundQuotient` does. -/
def Fmt.roundSqrt (F : Fmt) (rm : Rounding) (m : Nat) (e : Int) : BitVec F.width × FFlags :=
  let odd := e % 2 = 1
  let m' := if odd then 2 * m else m
  let e' := if odd then e - 1 else e
  let k := F.fracBits + 3
  let n := m' * 2 ^ (2 * k)
  let r := isqrt n
  F.round rm false (2 * r + (if r * r = n then 0 else 1)) (e' / 2 - k - 1)

/-- `fp_sqrt` (R413). -/
def Fmt.sqrt (F : Fmt) (rm : Rounding) (a : BitVec F.width) : BitVec F.width × FFlags :=
  let va := F.value a
  if va.isNaN then F.nanResult va.isSignaling
  else if va.isZero then (a, flagNone)
  else if va.neg then (F.cNaN, flagNV)
  else if va.isInfinite then (F.infinity false, flagNone)
  else F.roundSqrt rm va.magnitude.1 va.exponent

/-- `fp_fma` (R419): `a * b + c` rounded once. -/
def Fmt.fma (F : Fmt) (rm : Rounding) (a b c : BitVec F.width) : BitVec F.width × FFlags :=
  let va := F.value a
  let vb := F.value b
  let vc := F.value c
  let neg := va.neg != vb.neg
  if (va.isInfinite && vb.isZero) || (va.isZero && vb.isInfinite) then (F.cNaN, flagNV)
  else if va.isNaN || vb.isNaN || vc.isNaN then F.nanResult (va.isSignaling || vb.isSignaling || vc.isSignaling)
  else if va.isInfinite || vb.isInfinite then
    if vc.isInfinite && vc.neg != neg then (F.cNaN, flagNV) else (F.infinity neg, flagNone)
  else if vc.isInfinite then (c, flagNone)
  else
    let pe := va.exponent + vb.exponent
    let g := min pe vc.exponent
    let zeroNeg := if (va.isZero || vb.isZero) && vc.isZero && vc.neg == neg then neg else rm.zeroNeg
    F.roundSum rm zeroNeg (scaleTo (va.signed * vb.signed) pe g + scaleTo vc.signed vc.exponent g) g

/-! ### Comparison, minimum and maximum, classification (R427, R428, R441 to R445) -/

/-- -1, 0 and 1 for the negative infinity, a finite value and the positive infinity. -/
def FValue.rank (v : FValue) : Int :=
  if v.isInfinite then (if v.neg then -1 else 1) else 0

/-- `a < b` by value, for non-NaN operands (R441). -/
def FValue.lt (a b : FValue) : Bool :=
  if a.isInfinite || b.isInfinite then decide (a.rank < b.rank)
  else
    let g := min a.exponent b.exponent
    decide (scaleTo a.signed a.exponent g < scaleTo b.signed b.exponent g)

/-- `a = b` by value, for non-NaN operands: the zeros are equal (R441, R442). -/
def FValue.eq (a b : FValue) : Bool := !a.lt b && !b.lt a

/-- FEQ: a quiet comparison (R441, R442). -/
def Fmt.feq (F : Fmt) (a b : BitVec F.width) : Bool × FFlags :=
  let va := F.value a
  let vb := F.value b
  if va.isNaN || vb.isNaN then (false, nvIf (va.isSignaling || vb.isSignaling)) else (va.eq vb, flagNone)

/-- FLT: a signaling comparison (R441, R443). -/
def Fmt.flt (F : Fmt) (a b : BitVec F.width) : Bool × FFlags :=
  let va := F.value a
  let vb := F.value b
  if va.isNaN || vb.isNaN then (false, flagNV) else (va.lt vb, flagNone)

/-- FLE: a signaling comparison (R441, R444). -/
def Fmt.fle (F : Fmt) (a b : BitVec F.width) : Bool × FFlags :=
  let va := F.value a
  let vb := F.value b
  if va.isNaN || vb.isNaN then (false, flagNV) else (!vb.lt va, flagNone)

/-- `a < b` where -0 counts as less than +0 (R427, as general knowledge: PRESUMED, logs 24 and 30). -/
def FValue.ltZeros (a b : FValue) : Bool :=
  a.lt b || (a.isZero && b.isZero && a.neg && !b.neg)

/-- The choice of FMIN and FMAX with their NaN rules; `takeFirst` picks between two non-NaN operands (R427). -/
def Fmt.choose (F : Fmt) (takeFirst : FValue → FValue → Bool) (a b : BitVec F.width) : BitVec F.width × FFlags :=
  let va := F.value a
  let vb := F.value b
  let v :=
    if va.isNaN && vb.isNaN then F.cNaN
    else if va.isNaN then b
    else if vb.isNaN then a
    else if takeFirst va vb then a else b
  (v, nvIf (va.isSignaling || vb.isSignaling))

/-- FMIN (R427). -/
def Fmt.min (F : Fmt) (a b : BitVec F.width) : BitVec F.width × FFlags := F.choose (fun x y => x.ltZeros y) a b

/-- FMAX (R428). -/
def Fmt.max (F : Fmt) (a b : BitVec F.width) : BitVec F.width × FFlags := F.choose (fun x y => !x.ltZeros y) a b

/-- The bit number FCLASS sets (R445, Table 11; bits 0, 3, 4 and 7 are lost cells: PRESUMED, log 30). -/
def FValue.classBit : FValue → Nat
  | .infinite neg => if neg then 0 else 7
  | .normal neg _ _ => if neg then 1 else 6
  | .subnormal neg _ _ => if neg then 2 else 5
  | .zero neg => if neg then 3 else 4
  | .nan signaling => if signaling then 8 else 9

/-- FCLASS: `1 << class` (R445). -/
def Fmt.classMask (F : Fmt) (a : BitVec F.width) : Nat := 2 ^ (F.value a).classBit

/-! ### Conversions (R429, R434; 47_d.md R471) -/

/-- The bounds of an N-bit integer type (R429). -/
def intLo (n : Nat) (sgn : Bool) : Int := if sgn then -((2 ^ (n - 1) : Nat) : Int) else 0

def intHi (n : Nat) (sgn : Bool) : Int := if sgn then ((2 ^ (n - 1) : Nat) : Int) - 1 else ((2 ^ n : Nat) : Int) - 1

/-- `fp_to_int` (R429), as an N-bit pattern. -/
def Fmt.toInt (F : Fmt) (rm : Rounding) (n : Nat) (sgn : Bool) (a : BitVec F.width) : BitVec n × FFlags :=
  let v := F.value a
  if v.isNaN then (BitVec.ofInt n (intHi n sgn), flagNV)
  else if v.isInfinite then (BitVec.ofInt n (if v.neg then intLo n sgn else intHi n sgn), flagNV)
  else
    let (k, inexact) := roundToGrid rm v.neg v.magnitude.1 v.exponent 0
    let i : Int := if v.neg then -(k : Int) else k
    if i < intLo n sgn then (BitVec.ofInt n (intLo n sgn), flagNV)
    else if intHi n sgn < i then (BitVec.ofInt n (intHi n sgn), flagNV)
    else (BitVec.ofInt n i, nxIf inexact)

/-- `int_to_fp` (R434). -/
def Fmt.ofInt (F : Fmt) (rm : Rounding) (n : Int) : BitVec F.width × FFlags := F.roundSum rm false n 0

/-- `fp_to_fp`: from the format `G` to the format `F` (47_d.md R471). -/
def Fmt.ofFormat (F G : Fmt) (rm : Rounding) (a : BitVec G.width) : BitVec F.width × FFlags :=
  let v := G.value a
  if v.isNaN then F.nanResult v.isSignaling
  else if v.isInfinite then (F.infinity v.neg, flagNone)
  else if v.isZero then (F.zero v.neg, flagNone)
  else F.round rm v.neg v.magnitude.1 v.exponent

end Sys2Proof.Machine
end

