-- ==== Sys2Proof/Machine/Operands.lean ====
section
/-! DEFINITION. Operand forms: XLEN-bit values, immediates, the registers of both files, effective addresses and jump
targets (spec 00_scope.md R8; 10_state.md R20 to R26, R31; 20_memory.md R86; 47_d.md R451 to R453; 49_c.md R538). -/

namespace Sys2Proof

/-- The XLEN low bits of a value, in a register cell. -/
def Config.truncate (c : Config) (v : Word) : Word := if c.is32 then (v.setWidth 32).setWidth 64 else v

/-- `sext_XLEN` (00_scope.md R9). -/
def Config.sext (c : Config) {n : Nat} (v : BitVec n) : Word := c.truncate (v.signExtend 64)

/-- `zext_XLEN` of at most XLEN bits (R9). -/
def zext {n : Nat} (v : BitVec n) : Word := v.setWidth 64

/-- An operation on XLEN-bit values, for either XLEN. -/
def Config.atXlen (c : Config) (op : (w : Nat) → BitVec w → BitVec w → BitVec w) (a b : Word) : Word :=
  if c.is32 then (op 32 (a.setWidth 32) (b.setWidth 32)).setWidth 64 else op 64 a b

/-- A comparison of XLEN-bit values, for either XLEN. -/
def Config.testXlen (c : Config) (test : (w : Nat) → BitVec w → BitVec w → Bool) (a b : Word) : Bool :=
  if c.is32 then test 32 (a.setWidth 32) (b.setWidth 32) else test 64 a b

/-- XLEN-bit modular addition: every address and target computation (20_memory.md R60). -/
def Config.addX (c : Config) (a b : Word) : Word := c.truncate (a + b)

/-- The U-immediate: imm[31:12] and twelve zeros, sign-extended (40_rv32i_integer.md R201; 42 R276). -/
def Config.immU (c : Config) (imm : BitVec 20) : Word := c.sext (imm ++ 0#12)

/-- A branch or jump offset, from its bits above bit 0 (30_encoding.md R165, R167; 49_c.md R538). -/
def Config.offset (c : Config) {n : Nat} (off : BitVec n) : Word := c.sext (off ++ 0#1)

/-- A zero-extended compressed offset with `k` implied zeros (49_c.md R538). -/
def scaled {n : Nat} (k : Nat) (imm : BitVec n) : Word := zext (imm ++ 0#k)

/-- `pc` is a multiple of IALIGN/8 (10_state.md R26). -/
def Config.aligned (c : Config) (a : Word) : Bool := a.toNat % c.ialignBytes == 0

/-- How far `b` lies above `a` in the circular address space (20_memory.md R60). -/
def Config.distance (c : Config) (a b : Nat) : Nat := (b + 2 ^ c.xlen - a % 2 ^ c.xlen) % 2 ^ c.xlen

/-- `b` lies ahead of `a`: fewer than 2^(XLEN - 1) addresses above it. -/
def Config.ahead (c : Config) (a b : Word) : Bool :=
  decide (0 < c.distance a.toNat b.toNat) && decide (c.distance a.toNat b.toNat < 2 ^ (c.xlen - 1))

/-- The span holds the address. -/
def Span.holds (p : Span) (c : Config) (a : Nat) : Bool := decide (c.distance p.base a < p.size)

/-- The `n` bytes from `ea` on lie in one granule. -/
def AtomicGranule.holds (g : AtomicGranule) (c : Config) (ea n : Nat) : Bool :=
  let d := c.distance g.base ea
  decide (d + n ≤ g.size) && decide (d % g.bytes + n ≤ g.bytes)

namespace Machine

/-- Reading `x[r]`; `x0` reads zero (10_state.md R21). -/
def State.readX (s : State) (r : Reg) : Word := if r = 0#5 then 0#64 else s.x[r.toNat]'r.isLt

/-- Writing `x[r]`; a write to `x0` has no effect (R21). -/
def State.writeX (s : State) (r : Reg) (v : Word) : State :=
  if r = 0#5 then s else { s with x := s.x.set r.toNat (s.cfg.truncate v) r.isLt }

/-- The raw FLEN bits of `f[r]` (R31). -/
def State.readF (s : State) (r : Reg) : FWord := s.f[r.toNat]'r.isLt

/-- Writing the raw FLEN bits of `f[r]`. -/
def State.writeF (s : State) (r : Reg) (v : FWord) : State := { s with f := s.f.set r.toNat v r.isLt }

/-- `raw_n`: a transfer out of the `f` registers takes the low bits (47_d.md R453). -/
def State.rawFp (s : State) (F : Fmt) (r : Reg) : BitVec F.width := (s.readF r).setWidth F.width

/-- All bits from the width of the format up to FLEN are ones: a valid NaN-boxed value (47_d.md R452). -/
def isBoxed (c : Config) (F : Fmt) (v : FWord) : Bool :=
  v.extractLsb' F.width (c.flen - F.width) == BitVec.allOnes (c.flen - F.width)

/-- `unbox_n`: a narrower operand that is not NaN-boxed reads as the canonical NaN (R452). -/
def unbox (c : Config) (F : Fmt) (v : FWord) : BitVec F.width :=
  if isBoxed c F v then v.setWidth F.width else F.cNaN

/-- `write_n`: a narrower result is written with all ones above it, up to FLEN (R451). -/
def box (c : Config) (F : Fmt) (v : BitVec F.width) : FWord :=
  (BitVec.allOnes (c.flen - F.width)).setWidth 128 <<< F.width ||| v.setWidth 128

/-- `readS`, `readD`, `readQ` (46_f.md R408; 47_d.md R452; 48_q.md R491). -/
def State.readFp (s : State) (F : Fmt) (r : Reg) : BitVec F.width := unbox s.cfg F (s.readF r)

/-- `writeS`, `writeD`, `writeQ` (46_f.md R408; 47_d.md R451; 48_q.md R491). -/
def State.writeFp (s : State) (F : Fmt) (r : Reg) (v : BitVec F.width) : State := s.writeF r (box s.cfg F v)

/-- The effective address of a load or store: `x[rs1]` plus the sign-extended offset (20_memory.md R86). -/
def State.ea (s : State) (rs1 : Reg) (imm : BitVec 12) : Word := s.cfg.addX (s.readX rs1) (s.cfg.sext imm)

/-- The effective address of a compressed load or store: base register plus a zero-extended offset (R86). -/
def State.eaScaled (s : State) (base : Reg) (offset : Word) : Word := s.cfg.addX (s.readX base) offset

/-- A `pc`-relative target (41_rv32i_control_memory_system.md R232, R235). -/
def State.target (s : State) {n : Nat} (off : BitVec n) : Word := s.cfg.addX s.pc (s.cfg.offset off)

/-- The address after an instruction of `len` bytes, also the link value of a jump (10_state.md R25, R26). -/
def State.pcAfter (s : State) (len : Nat) : Word := s.cfg.addX s.pc (BitVec.ofNat 64 len)

end Machine
end Sys2Proof
end

