-- ==== Sys2Proof/Machine/Ops.lean ====
section
/-! DEFINITION. The named operations over memory, control and traps that the meanings call (spec 20_memory.md;
60_exceptions.md; 44_a.md R331 to R336; 45_zicsr_counters.md R371 to R380). -/

namespace Sys2Proof.Machine

/-! ### Memory as a canonical list (20_memory.md R60) -/

/-- What an address that memory does not list reads as (log 7). -/
def Memory.blank : Byte := 0#8

/-- The byte at an address. -/
def Memory.read (m : List Host.Cell) (a : Nat) : Byte :=
  match m with
  | [] => Memory.blank
  | (k, b) :: rest => if k = a then b else Memory.read rest a

/-- Put a cell before the first greater address. -/
def Memory.insert (a : Nat) (b : Byte) : List Host.Cell → List Host.Cell
  | [] => [(a, b)]
  | c :: rest => if c.1 < a then c :: Memory.insert a b rest else (a, b) :: c :: rest

/-- Write one byte: the address is listed exactly when the byte is not what an unlisted address reads as. -/
def Memory.write (m : List Host.Cell) (a : Nat) (b : Byte) : List Host.Cell :=
  let others := m.filter fun c => c.1 != a
  if b = Memory.blank then others else Memory.insert a b others

/-- The canonical form: addresses strictly rising, no cell that reads as an unlisted address does. -/
def Memory.wf : List Host.Cell → Bool
  | [] => true
  | [c] => c.2 != Memory.blank
  | c :: d :: rest => c.2 != Memory.blank && decide (c.1 < d.1) && Memory.wf (d :: rest)

/-! ### Bytes of an access (R60, R64, R65) -/

/-- The addresses of an `n`-byte access, modulo 2^XLEN (R60). -/
def byteAddrs (c : Config) (ea : Word) (n : Nat) : List Nat :=
  (List.range n).map fun i => (ea.toNat + i) % 2 ^ c.xlen

/-- Bytes as a number, the first least significant. -/
def fromLittle : List Byte → Nat
  | [] => 0
  | b :: rest => b.toNat + 256 * fromLittle rest

/-- The value of bytes read in ascending address order (R64). -/
def fromBytes (e : Endian) (bs : List Byte) : Nat :=
  match e with
  | .little => fromLittle bs
  | .big => fromLittle bs.reverse

/-- The bytes of a value, the least significant first. -/
def toLittle (n : Nat) (v : Nat) : List Byte := (List.range n).map fun i => BitVec.ofNat 8 (v / 2 ^ (8 * i))

/-- The bytes of a value in ascending address order (R65). -/
def toBytes (e : Endian) (n : Nat) (v : Nat) : List Byte :=
  match e with
  | .little => toLittle n v
  | .big => (toLittle n v).reverse

/-! ### MEMMAP (R61, R70) -/

/-- The region that holds an address; none where it is vacant. The first listed region counts (log 20). -/
def regionAt (c : Config) (a : Nat) : Option Region :=
  c.memmap.find? fun r => decide (r.base ≤ a) && decide (a < r.base + r.size)

def isIo (c : Config) (a : Nat) : Bool :=
  match regionAt c a with
  | some r => r.kind == .io
  | none => false

/-- The kinds of explicit access (R70); an AMO needs both permissions. -/
inductive AccessKind where
  | read
  | write
  | readWrite
deriving DecidableEq, Repr

/-- The address may be accessed in this way at this width (R70, R331). -/
def accessible (c : Config) (kind : AccessKind) (atomic : Bool) (n a : Nat) : Bool :=
  match regionAt c a with
  | none => false
  | some r =>
    (match kind with
      | .read => r.read
      | .write => r.write
      | .readWrite => r.read && r.write) &&
    r.widths.contains n && (!atomic || r.atomic)

/-- The address may be fetched from, at the width of a fetch, which reads 16-bit parcels (R70, R83; DEDUCED, log 20). -/
def fetchable (c : Config) (a : Nat) : Bool :=
  match regionAt c a with
  | none => false
  | some r => r.fetch && r.widths.contains 2

/-! ### The checks of a data access, in order (R67 to R70, R73; 60_exceptions.md R620) -/

/-- The cause under which a misaligned access reports (60_exceptions.md R608, R613). -/
def misalignedCause : AccessKind → Cause
  | .read => .loadAddressMisaligned
  | .write | .readWrite => .storeAddressMisaligned

/-- The cause under which an inaccessible address reports (R616). -/
def accessCause : AccessKind → Cause
  | .read => .loadAccessFault
  | .write | .readWrite => .storeAccessFault

/-- `MISALIGNED` for this access (20_memory.md R68). -/
def misalignedEffect (c : Config) (ea : Word) (n : Nat) : Misaligned :=
  match c.misalignedRules.find? fun r =>
      r.width == n && decide (r.base ≤ ea.toNat) && decide (ea.toNat < r.base + r.size) with
  | some r => r.effect
  | none => c.misaligned

def isMisaligned (ea : Word) (n : Nat) : Bool := ea.toNat % n != 0

/-- The second check: every byte accessible (R70). -/
def accessFault (c : Config) (kind : AccessKind) (atomic : Bool) (ea : Word) (n : Nat) : Option Cause :=
  if (byteAddrs c ea n).all (accessible c kind atomic n) then none else some (accessCause kind)

/-- What a load or store raises, if anything (R67, R68, R70). -/
def dataFault (c : Config) (kind : AccessKind) (ea : Word) (n : Nat) : Option Cause :=
  if isMisaligned ea n then
    match misalignedEffect c ea n with
    | .complete => accessFault c kind false ea n
    | .addressMisaligned => some (misalignedCause kind)
    | .accessFault => some (accessCause kind)
  else accessFault c kind false ea n

/-- `AtomicCheck`: what LR, SC or an AMO raises, if anything; only an AMO may be misaligned, with Zam (44_a.md R331). -/
def atomicFault (c : Config) (kind : AccessKind) (ea : Word) (n : Nat) : Option Cause :=
  if isMisaligned ea n && !(c.ext.zam && kind == .readWrite) then some (misalignedCause kind)
  else accessFault c kind true ea n

/-! ### Reading and writing bytes -/

/-- Remember the byte a store replaces: until FENCE.I a fetch may still return it (20_memory.md R78; log 15). -/
def State.keepStale (s : State) (a : Nat) (b : Byte) : State :=
  let old := Memory.read s.memory a
  if old = b ∨ (a, old) ∈ s.stale then s else { s with stale := (a, old) :: s.stale }

/-- Write one byte of main memory. -/
def State.writeMain (s : State) (a : Nat) (b : Byte) : State :=
  let s1 := s.keepStale a b
  { s1 with memory := Memory.write s1.memory a b }

/-- Write bytes of main memory in order. -/
def State.writeCells (s : State) (cells : List Host.Cell) : State := cells.foldl (fun t c => t.writeMain c.1 c.2) s

/-! ### The memory operations of an access (20_memory.md R71, R72; 21_memory_model.md R104, R105) -/

/-- The access is one memory operation: naturally aligned, and no wider than XLEN (R71, R104). -/
def oneOperation (c : Config) (ea : Word) (n : Nat) : Bool := !isMisaligned ea n && decide (8 * n ≤ c.xlen)

/-- An AMO whose bytes lie in one granule of `MISALIGNED_ATOMIC_GRANULE` follows the rules of an aligned one: it is one
memory operation, also when it is misaligned, as it may be with Zam (21_memory_model.md R126; log 29). -/
def amoWhole (c : Config) (ea : Word) (n : Nat) : Bool := c.atomicGranules.any fun g => g.holds c ea.toNat n

/-- The memory operations of an access in the order they are made, each as the numbers of its bytes: one where the
access is indivisible, which an AMO may be by its granule (`whole`), and else a free ordered partition of the bytes
(R72, R105; 21_memory_model.md R126; log 18). -/
def State.operations (s : State) (ea : Word) (n : Nat) (whole : Bool := false) : List (List Nat) :=
  let bytes := List.range n
  if whole || oneOperation s.cfg ea n then [bytes]
  else (bytes.map fun k => bytes.filter fun i => Config.component s.draws i % n == k).filter fun o => !o.isEmpty

/-- Some byte of the access lies in an I/O region, whose device sees the operations (R61, R77). -/
def touchesIo (c : Config) (ea : Word) (n : Nat) : Bool := (byteAddrs c ea n).any (isIo c)

/-- What the devices supply to byte `i` of an access: its byte of the value drawn for the operation it belongs to
(60_exceptions.md R627; log 18). -/
def State.deviceByte (s : State) (ea : Word) (n i : Nat) (whole : Bool := false) : Byte :=
  (Config.ioValue (s.draws + 1 + (s.operations ea n whole).findIdx fun o => o.contains i)).extractLsb' (8 * i) 8

/-- Byte `i` of an access: memory's, or its device's. -/
def State.byteOf (s : State) (ea : Word) (n i a : Nat) (whole : Bool := false) : Byte :=
  if isIo s.cfg a then s.deviceByte ea n i whole else Memory.read s.memory a

/-- The bytes of an access in ascending address order. -/
def State.readBytes (s : State) (ea : Word) (n : Nat) (whole : Bool := false) : List Byte :=
  (byteAddrs s.cfg ea n).mapIdx fun i a => s.byteOf ea n i a whole

/-- `MemRead(addr, n)` after its checks (R64); main memory is not changed by it, and where a device is read the free
values are used up. -/
def State.memRead (s : State) (ea : Word) (n : Nat) (whole : Bool := false) : BitVec (8 * n) × State :=
  (BitVec.ofNat (8 * n) (fromBytes s.cfg.endian (s.readBytes ea n whole)),
    if touchesIo s.cfg ea n then { s with draws := s.draws + 1 + (s.operations ea n whole).length } else s)

/-- The cells of a store in ascending address order (R65). -/
def storeCells (c : Config) (ea : Word) (n : Nat) (v : BitVec (8 * n)) : List Host.Cell :=
  (byteAddrs c ea n).zip (toBytes c.endian n v.toNat)

/-- What a store puts into the output trace: for each of its operations that reaches an I/O region one entry, with the
bytes that do (60_exceptions.md R627). -/
def State.outputs (s : State) (ea : Word) (n : Nat) (v : BitVec (8 * n)) (whole : Bool := false) :
    List (List Host.Cell) :=
  ((s.operations ea n whole).map fun o =>
    (o.filterMap fun i => (storeCells s.cfg ea n v)[i]?).filter fun c => isIo s.cfg c.1).filter fun o => !o.isEmpty

/-- `MemWrite(addr, n, v)` after its checks (R65): main memory gets its bytes, and I/O regions theirs, through the
output trace. DESIGN CHOICE (log 18): the trace keeps the stores to I/O regions in program order, also with no FENCE
between them, an order that R77 and 21_memory_model.md R112 leave open. -/
def State.memWrite (s : State) (ea : Word) (n : Nat) (v : BitVec (8 * n)) (whole : Bool := false) : State :=
  let t := s.writeCells ((storeCells s.cfg ea n v).filter fun c => !isIo s.cfg c.1)
  if touchesIo s.cfg ea n then { t with ioTrace := s.ioTrace ++ s.outputs ea n v whole, draws := s.draws + 1 } else t

/-! ### Taking an exception, retiring, and jumping (60_exceptions.md R605 to R609; 10_state.md R25) -/

/-- `raise E(info)`: the hart becomes Trapped with the record; the raising instruction changes nothing else (R605,
R606, R607, R623). -/
def raise (cause : Cause) (tval : Word) (ilen : Nat) (s : State) : Result :=
  .next { s with status := .trapped { cause := cause, epc := s.pc, tval := tval, ilen := ilen } }

/-- `raise IllegalInstruction`: the record holds the instruction bits (R609; log 23). -/
def illegal (i : Instr) (s : State) : Result := raise .illegalInstruction (encode i).bits i.ilen s

/-- An instruction executes only if it is one of the configuration (R610; R620 step 2). -/
def legal (i : Instr) (s : State) (body : Result) : Result :=
  if i.wellFormed s.cfg then body else illegal i s

/-- Complete: count the instruction in `instret` and go to `target` (10_state.md R25; 45_zicsr_counters.md R390). -/
def State.retireTo (s : State) (target : Word) : State := { s with pc := target, instret := s.instret + 1 }

/-- Complete without transferring control (10_state.md R25). -/
def retire (i : Instr) (s : State) : Result := .next (s.retireTo (s.pcAfter i.ilen))

/-- A jump or taken branch: a misaligned target raises on this instruction and writes no link (41 R231;
60_exceptions.md R611); else `link` is done and control goes to the target. -/
def jump (i : Instr) (target : Word) (s linked : State) : Result :=
  if s.cfg.aligned target then .next (linked.retireTo target)
  else raise .instructionAddressMisaligned target i.ilen s

/-! ### Loads and stores -/

/-- A load: check, read, hand the value to `put`, retire (41 R242; 20_memory.md R67 to R74). -/
def load (i : Instr) (n : Nat) (ea : Word) (put : BitVec (8 * n) → State → State) (s : State) : Result :=
  match dataFault s.cfg .read ea n with
  | some cause => raise cause ea i.ilen s
  | none => retire i (put (s.memRead ea n).1 (s.memRead ea n).2)

/-- A store: check, write, retire (41 R242, R249 to R251). -/
def store (i : Instr) (n : Nat) (ea : Word) (v : BitVec (8 * n)) (s : State) : Result :=
  match dataFault s.cfg .write ea n with
  | some cause => raise cause ea i.ilen s
  | none => retire i (s.memWrite ea n v)

/-! ### Reservations and atomics (44_a.md) -/

/-- What `RESERVATION_SET(ea, n)` holds beside the bytes read (44_a.md R333; log 17). -/
def extraSpans (c : Config) (ea : Word) (n : Nat) : List Span :=
  match c.reservationSet with
  | .exact => []
  | .block k => [{ base := ea.toNat / 2 ^ k * 2 ^ k, size := 2 ^ k }]
  | .table rules =>
    (rules.filter fun r =>
      r.width == n && decide (r.base ≤ ea.toNat) && decide (ea.toNat < r.base + r.size)).flatMap fun r => r.extra

/-- A reservation of the bytes read and of further spans: its set always holds the bytes read (R333; 10_state.md R48).
-/
def Reservation.over (bytes : Span) (extra : List Span) : Reservation :=
  { set := bytes :: extra, byteBase := bytes.base, byteCount := bytes.size }

/-- What an LR of `n` bytes at `ea` registers, with `RESERVATION_SET(ea, n)` (R333). -/
def reserve (c : Config) (ea : Word) (n : Nat) : Reservation :=
  Reservation.over { base := ea.toNat, size := n } (extraSpans c ea n)

/-- The bytes of an access lie in the reservation set (R334). -/
def Reservation.covers (r : Reservation) (c : Config) (ea : Word) (n : Nat) : Bool :=
  (byteAddrs c ea n).all fun a => r.set.any fun p => p.holds c a

/-- The address is that of a byte the LR read (R336). -/
def Reservation.reads (r : Reservation) (c : Config) (a : Nat) : Bool :=
  ({ base := r.byteBase, size := r.byteCount } : Span).holds c a

/-- LR: check, read, register the reservation, write the sign-extended value (R340, R342). -/
def loadReserved (i : Instr) (n : Nat) (rd rs1 : Reg) (s : State) : Result :=
  let ea := s.readX rs1
  match atomicFault s.cfg .read ea n with
  | some cause => raise cause ea i.ilen s
  | none =>
    let v := (s.memRead ea n).1
    let s1 := { (s.memRead ea n).2 with reservation := some (reserve s.cfg ea n) }
    retire i (s1.writeX rd (v.signExtend 64))

/-- The loop with an instruction at `pc` in it. -/
def RetryLoop.reach (l : RetryLoop) (c : Config) (pc : Word) : RetryLoop :=
  { l with
    first := if c.ahead pc l.first then pc else l.first
    last := if c.ahead l.last pc then pc else l.last }

/-- The length in bytes of the instruction that memory holds at an address (30_encoding.md R151). -/
def State.lengthAt (s : State) (a : Word) : Nat :=
  let b0 := Memory.read s.memory (a.toNat % 2 ^ s.cfg.xlen)
  let b1 := Memory.read s.memory ((a.toNat + 1) % 2 ^ s.cfg.xlen)
  if isHalf s.cfg (parcelOf b0 b1) then 2 else 4

/-- The instruction at `last` is among the `k` placed sequentially in memory from `a`. -/
def State.sequential (s : State) (last : Word) : Nat → Word → Bool
  | 0, _ => false
  | k + 1, a => a == last || s.sequential last k (s.cfg.addX a (BitVec.ofNat 64 (s.lengthAt a)))

/-- The guarantee of R346: the SC of a constrained loop, of at most 16 instructions and to the address and size of its
LR, may be failed at most as often as the environment's patience for the loop lasts (log 16). -/
def State.scMustSucceed (s : State) (ea : Word) (n : Nat) : Bool :=
  match s.loop with
  | none => false
  | some l =>
    let r := l.reach s.cfg s.pc
    !l.retrying && l.ea == ea && l.n == n && decide (l.patience < l.failures) && s.sequential r.last 16 r.first

/-- `SC_MAY_FAIL()`: never, or the environment's draw as far as the guarantee leaves it one (R334, R346; log 16). -/
def State.scMayFail (s : State) (ea : Word) (n : Nat) : Bool × State :=
  match s.cfg.scMayFail with
  | .never => (false, s)
  | .oracle => (Config.scFails s.draws && !s.scMustSucceed ea n, { s with draws := s.draws + 1 })

/-- A reservation is held and its set holds the bytes (R334). -/
def State.reserved (s : State) (ea : Word) (n : Nat) : Bool :=
  match s.reservation with
  | none => false
  | some r => r.covers s.cfg ea n

/-- The SC succeeds: a reservation covers its bytes and the environment does not fail it (R334). -/
def State.scSucceeds (s : State) (ea : Word) (n : Nat) : Bool := s.reserved ea n && !(s.scMayFail ea n).1

/-- SC: checked whether or not it would succeed; stores and answers 0, or stores nothing and answers `SC_FAIL_CODE`;
clears the reservation either way (R331, R334, R335, R341, R343). -/
def storeConditional (i : Instr) (n : Nat) (rd rs1 rs2 : Reg) (s : State) : Result :=
  let ea := s.readX rs1
  match atomicFault s.cfg .write ea n with
  | some cause => raise cause ea i.ilen s
  | none =>
    let ok := s.scSucceeds ea n
    let s1 := (s.scMayFail ea n).2
    let s2 := if ok then s1.memWrite ea n ((s.readX rs2).setWidth (8 * n)) else s1
    let s3 := { s2 with reservation := none }
    retire i (s3.writeX rd (if ok then 0#64 else s.cfg.scFailCode))

/-- An AMO: check, read, write the operation's result, put the sign-extended old value in `rd` (R350); its granule
decides whether a misaligned one is one memory operation (21_memory_model.md R126). -/
def amo (i : Instr) (n : Nat) (op : BitVec (8 * n) → BitVec (8 * n) → BitVec (8 * n)) (rd rs1 rs2 : Reg)
    (s : State) : Result :=
  let ea := s.readX rs1
  match atomicFault s.cfg .readWrite ea n with
  | some cause => raise cause ea i.ilen s
  | none =>
    let whole := amoWhole s.cfg ea n
    let old := (s.memRead ea n whole).1
    let s1 := (s.memRead ea n whole).2.memWrite ea n (op old ((s.readX rs2).setWidth (8 * n))) whole
    retire i (s1.writeX rd (old.signExtend 64))

/-! ### CSRs (10_state.md R34; 45_zicsr_counters.md R371 to R380) -/

/-- The CSRs in scope (10_state.md R34): counter 0 is `cycle`, 1 `time`, 2 `instret`, N `hpmcounterN`. -/
inductive Csr where
  | fflags
  | frm
  | fcsr
  | counter (n : Nat)
  | counterHigh (n : Nat)
deriving DecidableEq, Repr

/-- The counter exists where Counters are present: the first three, and the implemented hpmcounters (R43). -/
def counterPresent (c : Config) (n : Nat) : Bool :=
  c.ext.counters && (decide (n < 3) || (decide (n < 32) && c.hpmcounters.contains n))

/-- The CSR at an address in the configuration (R34, R42, R44). -/
def csrAt (c : Config) (a : BitVec 12) : Option Csr :=
  let n := a.toNat
  if n = 0x001 then if c.ext.f then some .fflags else none
  else if n = 0x002 then if c.ext.f then some .frm else none
  else if n = 0x003 then if c.ext.f then some .fcsr else none
  else if 0xC00 ≤ n ∧ n < 0xC20 then
    if counterPresent c (n - 0xC00) then some (.counter (n - 0xC00)) else none
  else if 0xC80 ≤ n ∧ n < 0xCA0 then
    if c.is32 && counterPresent c (n - 0xC80) then some (.counterHigh (n - 0xC80)) else none
  else none

/-- The counters are read-only (R34; 45 R378). -/
def Csr.readOnly : Csr → Bool
  | .fflags | .frm | .fcsr => false
  | .counter _ | .counterHigh _ => true

/-- The 64-bit value of a counter; `cycle` and `time` have advanced by a free amount since they were last read (45
R390; log 13). -/
def State.counter (s : State) (n : Nat) : BitVec 64 × State :=
  match n with
  | 0 =>
    let v := s.cycle + (Config.cycleAdvance s.draws).setWidth 64
    (v, { s with cycle := v, draws := s.draws + 1 })
  | 1 =>
    let v := s.time + (Config.timeAdvance s.draws).setWidth 64
    (v, { s with time := v, draws := s.draws + 1 })
  | 2 => (s.instret, s)
  | n + 3 => (s.hpm[n]?.getD 0#64, s)

/-- `CSRread(a)`: zero-extended to XLEN bits (45 R371; 10_state.md R36, R37, R42). -/
def State.csrRead (s : State) (r : Csr) : Word × State :=
  match r with
  | .fflags => (zext s.fflags, s)
  | .frm => (zext s.frm, s)
  | .fcsr => (zext s.fcsr, s)
  | .counter n => (s.cfg.truncate (s.counter n).1, (s.counter n).2)
  | .counterHigh n => (zext ((s.counter n).1.extractLsb' 32 32), (s.counter n).2)

/-- `CSRwrite(a, v)`: only the writable bits change (45 R372). Counters are never written. -/
def State.csrWrite (s : State) (r : Csr) (v : Word) : State :=
  match r with
  | .fflags => s.setFflags (v.setWidth 5)
  | .frm => s.setFrm (v.setWidth 3)
  | .fcsr => s.setFcsr (v.setWidth 8)
  | .counter _ | .counterHigh _ => s

/-- `CSRop(src, f)`: both illegal cases first; the source is sampled before `rd` is written (45 R373, R378, R380). -/
def csrOp (i : Instr) (rd : Reg) (csr : BitVec 12) (reads writes : Bool) (src : Word) (f : Word → Word → Word)
    (s : State) : Result :=
  match csrAt s.cfg csr with
  | none => illegal i s
  | some r =>
    if writes && r.readOnly then illegal i s
    else
      let old := if reads then (s.csrRead r).1 else 0#64
      let s1 := if reads then (s.csrRead r).2 else s
      let s2 := if writes then s1.csrWrite r (f old src) else s1
      retire i (if reads then s2.writeX rd old else s2)

/-! ### The return from an exception: the environment's `resume(f)` (60_exceptions.md R605, R607, R624) -/

/-- What a service makes of the hart's reservation: it leaves the one held, if any, takes it away, or registers one of
its own (R605; 10_state.md R48). -/
inductive ServedReservation where
  | keep
  | clear
  | register (bytes : Span) (extra : List Span)
deriving DecidableEq, Repr, Inhabited

/-- What the environment sets when it serves a trap: all the state of the hart (R605; 10_state.md, "Summary of the state
of one hart": `x`, `pc`, `f`, `fcsr`, the counters, the reservation), and bytes of memory (R614). -/
structure ServiceEffect where
  x : Vector Word 32
  pc : Word
  f : Vector FWord 32
  fcsr : BitVec 8
  cycle : BitVec 64
  time : BitVec 64
  instret : BitVec 64
  hpm : Vector (BitVec 64) 29
  reservation : ServedReservation
  writes : List Host.Cell
deriving DecidableEq, Repr, Inhabited

end Sys2Proof.Machine

/-- The function `f` of a service: a free value, a function of the record, of the hart's state and (through the draw
counter in it) of the environment's own state (60_exceptions.md R605; log 11). -/
opaque Sys2Proof.Config.service (r : Sys2Proof.Machine.TrapRecord) (s : Sys2Proof.Machine.State) :
  Sys2Proof.Machine.ServiceEffect

namespace Sys2Proof.Machine

/-- The reservation after a service: what the environment makes of it (R605). One that it leaves is lost to its own
write of a byte the LR read, as to any write of an agent other than a hart (44_a.md R336). -/
def State.servedReservation (s : State) (e : ServiceEffect) : Option Reservation :=
  match e.reservation with
  | .keep => s.reservation.filter fun r => !e.writes.any fun w => r.reads s.cfg w.1
  | .clear => none
  | .register bytes extra => some (Reservation.over bytes extra)

/-- The cells a service writes, their addresses modulo 2^XLEN (R60). -/
def ServiceEffect.cells (e : ServiceEffect) (c : Config) : List Host.Cell :=
  e.writes.map fun w => (w.1 % 2 ^ c.xlen, w.2)

/-- The hart's state and the bytes of a service put into the state, each at its width (R605, R614). DESIGN CHOICE (logs
11 and 15): the bytes that the environment replaces stay candidates of a fetch until FENCE.I, as those that a store
replaces; 20_memory.md R78 speaks of stores alone. -/
def State.serve (s : State) (e : ServiceEffect) : State :=
  let s1 : State :=
    { s with
      x := e.x.map s.cfg.truncate
      f := e.f.map fun v => (v.setWidth s.cfg.flen).setWidth 128
      fcsr := e.fcsr
      cycle := e.cycle
      time := e.time
      instret := e.instret
      hpm := e.hpm
      reservation := s.servedReservation e
      draws := s.draws + 1 }
  s1.writeCells (e.cells s.cfg)

/-- Running again at a new `pc`, out of any LR/SC loop (44_a.md R346: "H traps"); "`f` is refused otherwise" (R607). -/
def resumeAt (target : Word) (s : State) : Result :=
  if s.cfg.aligned target then .next { s with pc := target, status := .running, loop := none }
  else .refused .misalignedResume

/-- `resume(f)`: skip sets `pc` to `epc + ilen`, retry to `epc`; a service sets what the environment chooses (R605,
R607). -/
def resume (f : Resume) (r : TrapRecord) (s : State) : Result :=
  match f with
  | .skip => resumeAt (s.cfg.addX r.epc (BitVec.ofNat 64 r.ilen)) s
  | .retry => resumeAt (s.cfg.truncate r.epc) s
  | .service => resumeAt (s.cfg.truncate (Config.service r s).pc) (s.serve (Config.service r s))

/-- `TRAP_POLICY(cause)`: none is `halt` (R605). -/
def trapPolicy (c : Config) (cause : Cause) : Option Resume :=
  (c.trapPolicy.find? fun p => p.1 == cause).map fun p => p.2

/-- What a step of a Trapped hart does: under `halt` it changes no state (R605). -/
def stepTrapped (r : TrapRecord) (s : State) : Result :=
  match trapPolicy s.cfg r.cause with
  | none => .next s
  | some f => resume f r s

end Sys2Proof.Machine
end

