-- ==== Sys2Proof/Machine/Alu.lean ====
section
/-! DEFINITION. The integer computations and the shapes of the integer instructions (spec 40_rv32i_integer.md;
41_rv32i_control_memory_system.md; 42_rv32e_rv64i_rv128i.md; 43_m.md). A computation is written once for any width and
used at XLEN bits, or at 32 bits by the W forms. -/

namespace Sys2Proof.Machine

/-! ### Computations -/

def aluAdd (w : Nat) (a b : BitVec w) : BitVec w := a + b
def aluSub (w : Nat) (a b : BitVec w) : BitVec w := a - b
def aluXor (w : Nat) (a b : BitVec w) : BitVec w := a ^^^ b
def aluOr (w : Nat) (a b : BitVec w) : BitVec w := a ||| b
def aluAnd (w : Nat) (a b : BitVec w) : BitVec w := a &&& b

/-- 1 if less, signed (40 R204, R216). -/
def aluSlt (w : Nat) (a b : BitVec w) : BitVec w := if a.slt b then 1#w else 0#w

/-- 1 if less, unsigned (40 R205, R217). -/
def aluSltu (w : Nat) (a b : BitVec w) : BitVec w := if a.ult b then 1#w else 0#w

/-- Shifts use the low log2(w) bits of the second operand (40 R215, R219, R220; 42 R276). -/
def aluSll (w : Nat) (a b : BitVec w) : BitVec w := a <<< (b.toNat % w)
def aluSrl (w : Nat) (a b : BitVec w) : BitVec w := a >>> (b.toNat % w)
def aluSra (w : Nat) (a b : BitVec w) : BitVec w := a.sshiftRight (b.toNat % w)

/-- The low w bits of the product (43_m.md R312). -/
def aluMul (w : Nat) (a b : BitVec w) : BitVec w := a * b

/-- The high w bits of the signed product (43 R313). -/
def aluMulh (w : Nat) (a b : BitVec w) : BitVec w := BitVec.ofInt w (a.toInt * b.toInt / ((2 ^ w : Nat) : Int))

/-- The high w bits of signed times unsigned (43 R314). -/
def aluMulhsu (w : Nat) (a b : BitVec w) : BitVec w :=
  BitVec.ofInt w (a.toInt * (b.toNat : Int) / ((2 ^ w : Nat) : Int))

/-- The high w bits of the unsigned product (43 R315). -/
def aluMulhu (w : Nat) (a b : BitVec w) : BitVec w := BitVec.ofNat w (a.toNat * b.toNat / 2 ^ w)

/-- Signed division towards zero; by zero -1; the overflow case wraps to the dividend (43 R320, R321). -/
def aluDiv (w : Nat) (a b : BitVec w) : BitVec w := if b = 0#w then BitVec.allOnes w else a.sdiv b

/-- Unsigned division; by zero all ones (43 R320). -/
def aluDivu (w : Nat) (a b : BitVec w) : BitVec w := if b = 0#w then BitVec.allOnes w else a / b

/-- Signed remainder with the sign of the dividend; by zero the dividend; 0 in the overflow case (43 R320). -/
def aluRem (w : Nat) (a b : BitVec w) : BitVec w := if b = 0#w then a else a.srem b

/-- Unsigned remainder; by zero the dividend (43 R320). -/
def aluRemu (w : Nat) (a b : BitVec w) : BitVec w := if b = 0#w then a else a % b

/-! ### Branch tests (41 R236 to R241) -/

def testEq (w : Nat) (a b : BitVec w) : Bool := a == b
def testNe (w : Nat) (a b : BitVec w) : Bool := a != b
def testLt (w : Nat) (a b : BitVec w) : Bool := a.slt b
def testGe (w : Nat) (a b : BitVec w) : Bool := !a.slt b
def testLtu (w : Nat) (a b : BitVec w) : Bool := a.ult b
def testGeu (w : Nat) (a b : BitVec w) : Bool := !a.ult b

/-! ### Shapes -/

/-- `x[rd] <- v`, then the next instruction. -/
def setReg (i : Instr) (rd : Reg) (v : Word) (s : State) : Result := legal i s (retire i (s.writeX rd v))

/-- Register-register: both sources are read before `rd` is written (70_reset_and_hazards.md R651). -/
def opReg (i : Instr) (op : (w : Nat) → BitVec w → BitVec w → BitVec w) (rd rs1 rs2 : Reg) (s : State) : Result :=
  setReg i rd (s.cfg.atXlen op (s.readX rs1) (s.readX rs2)) s

/-- Register-immediate, the immediate already XLEN bits wide. -/
def opImm (i : Instr) (op : (w : Nat) → BitVec w → BitVec w → BitVec w) (rd rs1 : Reg) (v : Word) (s : State) :
    Result :=
  setReg i rd (s.cfg.atXlen op (s.readX rs1) v) s

/-- The W form of an operation: on the low 32 bits, the 32-bit result sign-extended (42 R278 to R286). -/
def onWord (op : (w : Nat) → BitVec w → BitVec w → BitVec w) (a b : Word) : Word :=
  (op 32 (a.setWidth 32) (b.setWidth 32)).signExtend 64

def opRegW (i : Instr) (op : (w : Nat) → BitVec w → BitVec w → BitVec w) (rd rs1 rs2 : Reg) (s : State) : Result :=
  setReg i rd (onWord op (s.readX rs1) (s.readX rs2)) s

def opImmW (i : Instr) (op : (w : Nat) → BitVec w → BitVec w → BitVec w) (rd rs1 : Reg) (v : Word) (s : State) :
    Result :=
  setReg i rd (onWord op (s.readX rs1) v) s

/-- A conditional branch: not taken, the next instruction; taken, a jump (41 R231, R235). -/
def branch (i : Instr) (test : (w : Nat) → BitVec w → BitVec w → Bool) (rs1 rs2 : Reg) (target : Word) (s : State) :
    Result :=
  legal i s (if s.cfg.testXlen test (s.readX rs1) (s.readX rs2) then jump i target s s else retire i s)

/-- A jump that writes the address after it to `rd` (41 R232, R234; 10_state.md R25). -/
def jumpLink (i : Instr) (rd : Reg) (target : Word) (s : State) : Result :=
  legal i s (jump i target s (s.writeX rd (s.pcAfter i.ilen)))

/-- The target of JALR: bit 0 of the sum is cleared (41 R234). -/
def clearBit0 (a : Word) : Word := a &&& ~~~1#64

/-- An instruction whose only effect on this hart is to advance `pc` (41 R255, R256, R262; 49_c.md R534). -/
def noEffect (i : Instr) (s : State) : Result := legal i s (retire i s)

/-- A load into an integer register, sign-extended (41 R243 to R245) or zero-extended (R246, R247). -/
def loadX (i : Instr) (n : Nat) (sgn : Bool) (rd : Reg) (ea : Word) (s : State) : Result :=
  legal i s (load i n ea (fun v t => t.writeX rd (if sgn then v.signExtend 64 else v.setWidth 64)) s)

/-- A store of the low bytes of an integer register (41 R249 to R251). -/
def storeX (i : Instr) (n : Nat) (rs2 : Reg) (ea : Word) (s : State) : Result :=
  legal i s (store i n ea ((s.readX rs2).setWidth (8 * n)) s)

end Sys2Proof.Machine
end

