-- ==== Sys2Proof/Machine/Atomic.lean ====
section
/-! DEFINITION. The meanings of A (spec 44_a.md). `aq` and `rl` have no effect on one hart (R332; log 22). -/

namespace Sys2Proof.Machine

/-- The result an AMO stores (44_a.md R350 to R360): the source value, or the smaller or larger of both. -/
def amoSwap {w : Nat} (_ src : BitVec w) : BitVec w := src
def amoMin {w : Nat} (old src : BitVec w) : BitVec w := if old.slt src then old else src
def amoMax {w : Nat} (old src : BitVec w) : BitVec w := if old.slt src then src else old
def amoMinu {w : Nat} (old src : BitVec w) : BitVec w := if old.ult src then old else src
def amoMaxu {w : Nat} (old src : BitVec w) : BitVec w := if old.ult src then src else old

/-- LR.W (44_a.md R340). -/
def execLrW (rd rs1 : Reg) (aq rl : BitVec 1) (s : State) : Result :=
  legal (.lrW rd rs1 aq rl) s (loadReserved (.lrW rd rs1 aq rl) 4 rd rs1 s)

/-- SC.W (44_a.md R341). -/
def execScW (rd rs1 rs2 : Reg) (aq rl : BitVec 1) (s : State) : Result :=
  legal (.scW rd rs1 rs2 aq rl) s (storeConditional (.scW rd rs1 rs2 aq rl) 4 rd rs1 rs2 s)

/-- AMOSWAP.W (44_a.md R351). -/
def execAmoswapW (rd rs1 rs2 : Reg) (aq rl : BitVec 1) (s : State) : Result :=
  legal (.amoswapW rd rs1 rs2 aq rl) s (amo (.amoswapW rd rs1 rs2 aq rl) 4 amoSwap rd rs1 rs2 s)

/-- AMOADD.W (44_a.md R352). -/
def execAmoaddW (rd rs1 rs2 : Reg) (aq rl : BitVec 1) (s : State) : Result :=
  legal (.amoaddW rd rs1 rs2 aq rl) s (amo (.amoaddW rd rs1 rs2 aq rl) 4 (aluAdd (8 * 4)) rd rs1 rs2 s)

/-- AMOXOR.W (44_a.md R353). -/
def execAmoxorW (rd rs1 rs2 : Reg) (aq rl : BitVec 1) (s : State) : Result :=
  legal (.amoxorW rd rs1 rs2 aq rl) s (amo (.amoxorW rd rs1 rs2 aq rl) 4 (aluXor (8 * 4)) rd rs1 rs2 s)

/-- AMOAND.W (44_a.md R354). -/
def execAmoandW (rd rs1 rs2 : Reg) (aq rl : BitVec 1) (s : State) : Result :=
  legal (.amoandW rd rs1 rs2 aq rl) s (amo (.amoandW rd rs1 rs2 aq rl) 4 (aluAnd (8 * 4)) rd rs1 rs2 s)

/-- AMOOR.W (44_a.md R355). -/
def execAmoorW (rd rs1 rs2 : Reg) (aq rl : BitVec 1) (s : State) : Result :=
  legal (.amoorW rd rs1 rs2 aq rl) s (amo (.amoorW rd rs1 rs2 aq rl) 4 (aluOr (8 * 4)) rd rs1 rs2 s)

/-- AMOMIN.W (44_a.md R356). -/
def execAmominW (rd rs1 rs2 : Reg) (aq rl : BitVec 1) (s : State) : Result :=
  legal (.amominW rd rs1 rs2 aq rl) s (amo (.amominW rd rs1 rs2 aq rl) 4 amoMin rd rs1 rs2 s)

/-- AMOMAX.W (44_a.md R357). -/
def execAmomaxW (rd rs1 rs2 : Reg) (aq rl : BitVec 1) (s : State) : Result :=
  legal (.amomaxW rd rs1 rs2 aq rl) s (amo (.amomaxW rd rs1 rs2 aq rl) 4 amoMax rd rs1 rs2 s)

/-- AMOMINU.W (44_a.md R358). -/
def execAmominuW (rd rs1 rs2 : Reg) (aq rl : BitVec 1) (s : State) : Result :=
  legal (.amominuW rd rs1 rs2 aq rl) s (amo (.amominuW rd rs1 rs2 aq rl) 4 amoMinu rd rs1 rs2 s)

/-- AMOMAXU.W (44_a.md R359). -/
def execAmomaxuW (rd rs1 rs2 : Reg) (aq rl : BitVec 1) (s : State) : Result :=
  legal (.amomaxuW rd rs1 rs2 aq rl) s (amo (.amomaxuW rd rs1 rs2 aq rl) 4 amoMaxu rd rs1 rs2 s)

/-- LR.D (44_a.md R342). -/
def execLrD (rd rs1 : Reg) (aq rl : BitVec 1) (s : State) : Result :=
  legal (.lrD rd rs1 aq rl) s (loadReserved (.lrD rd rs1 aq rl) 8 rd rs1 s)

/-- SC.D (44_a.md R343). -/
def execScD (rd rs1 rs2 : Reg) (aq rl : BitVec 1) (s : State) : Result :=
  legal (.scD rd rs1 rs2 aq rl) s (storeConditional (.scD rd rs1 rs2 aq rl) 8 rd rs1 rs2 s)

/-- AMOSWAP.D (44_a.md R351). -/
def execAmoswapD (rd rs1 rs2 : Reg) (aq rl : BitVec 1) (s : State) : Result :=
  legal (.amoswapD rd rs1 rs2 aq rl) s (amo (.amoswapD rd rs1 rs2 aq rl) 8 amoSwap rd rs1 rs2 s)

/-- AMOADD.D (44_a.md R352). -/
def execAmoaddD (rd rs1 rs2 : Reg) (aq rl : BitVec 1) (s : State) : Result :=
  legal (.amoaddD rd rs1 rs2 aq rl) s (amo (.amoaddD rd rs1 rs2 aq rl) 8 (aluAdd (8 * 8)) rd rs1 rs2 s)

/-- AMOXOR.D (44_a.md R353). -/
def execAmoxorD (rd rs1 rs2 : Reg) (aq rl : BitVec 1) (s : State) : Result :=
  legal (.amoxorD rd rs1 rs2 aq rl) s (amo (.amoxorD rd rs1 rs2 aq rl) 8 (aluXor (8 * 8)) rd rs1 rs2 s)

/-- AMOAND.D (44_a.md R354). -/
def execAmoandD (rd rs1 rs2 : Reg) (aq rl : BitVec 1) (s : State) : Result :=
  legal (.amoandD rd rs1 rs2 aq rl) s (amo (.amoandD rd rs1 rs2 aq rl) 8 (aluAnd (8 * 8)) rd rs1 rs2 s)

/-- AMOOR.D (44_a.md R355). -/
def execAmoorD (rd rs1 rs2 : Reg) (aq rl : BitVec 1) (s : State) : Result :=
  legal (.amoorD rd rs1 rs2 aq rl) s (amo (.amoorD rd rs1 rs2 aq rl) 8 (aluOr (8 * 8)) rd rs1 rs2 s)

/-- AMOMIN.D (44_a.md R356). -/
def execAmominD (rd rs1 rs2 : Reg) (aq rl : BitVec 1) (s : State) : Result :=
  legal (.amominD rd rs1 rs2 aq rl) s (amo (.amominD rd rs1 rs2 aq rl) 8 amoMin rd rs1 rs2 s)

/-- AMOMAX.D (44_a.md R357). -/
def execAmomaxD (rd rs1 rs2 : Reg) (aq rl : BitVec 1) (s : State) : Result :=
  legal (.amomaxD rd rs1 rs2 aq rl) s (amo (.amomaxD rd rs1 rs2 aq rl) 8 amoMax rd rs1 rs2 s)

/-- AMOMINU.D (44_a.md R358). -/
def execAmominuD (rd rs1 rs2 : Reg) (aq rl : BitVec 1) (s : State) : Result :=
  legal (.amominuD rd rs1 rs2 aq rl) s (amo (.amominuD rd rs1 rs2 aq rl) 8 amoMinu rd rs1 rs2 s)

/-- AMOMAXU.D (44_a.md R359). -/
def execAmomaxuD (rd rs1 rs2 : Reg) (aq rl : BitVec 1) (s : State) : Result :=
  legal (.amomaxuD rd rs1 rs2 aq rl) s (amo (.amomaxuD rd rs1 rs2 aq rl) 8 amoMaxu rd rs1 rs2 s)

end Sys2Proof.Machine
end

