-- ==== Sys2Proof/Machine/FloatOps.lean ====
section
/-! DEFINITION. The shapes of the floating-point instructions, once for the three formats (spec 46_f.md; 47_d.md;
48_q.md). -/

namespace Sys2Proof.Machine

/-- An instruction with an `rm` field: a reserved effective mode raises IllegalInstruction before anything else, also
where the result cannot depend on the mode (46_f.md R403, R404). -/
def withRounding (i : Instr) (rm : BitVec 3) (s : State) (body : Rounding → Result) : Result :=
  legal i s (match s.rounding rm with
    | none => illegal i s
    | some m => body m)

/-- `writeF(rd, v); accrue(fl)`, then the next instruction (R408). -/
def fpResult (i : Instr) (F : Fmt) (rd : Reg) (r : BitVec F.width × FFlags) (s : State) : Result :=
  retire i ((s.writeFp F rd r.1).accrue r.2)

/-- `x[rd] <- v; accrue(fl)`, then the next instruction. -/
def intResult (i : Instr) (rd : Reg) (v : Word) (fl : FFlags) (s : State) : Result :=
  retire i ((s.writeX rd v).accrue fl)

/-- FADD, FSUB, FMUL, FDIV (R414 to R417). -/
def fpBinary (i : Instr) (F : Fmt) (op : Rounding → BitVec F.width → BitVec F.width → BitVec F.width × FFlags)
    (rd rs1 rs2 : Reg) (rm : BitVec 3) (s : State) : Result :=
  withRounding i rm s fun m => fpResult i F rd (op m (s.readFp F rs1) (s.readFp F rs2)) s

/-- FSQRT (R418). -/
def fpSqrt (i : Instr) (F : Fmt) (rd rs1 : Reg) (rm : BitVec 3) (s : State) : Result :=
  withRounding i rm s fun m => fpResult i F rd (F.sqrt m (s.readFp F rs1)) s

/-- The fused forms: the first factor and the addend may be negated (R420 to R423). -/
def fpFused (i : Instr) (F : Fmt) (negProduct negAddend : Bool) (rd rs1 rs2 rs3 : Reg) (rm : BitVec 3) (s : State) :
    Result :=
  withRounding i rm s fun m =>
    let a := s.readFp F rs1
    let c := s.readFp F rs3
    fpResult i F rd
      (F.fma m (if negProduct then F.negate a else a) (s.readFp F rs2) (if negAddend then F.negate c else c)) s

/-- FSGNJ, FSGNJN, FSGNJX: `sign` computes the result's sign from the operands' signs; no flag (R424 to R426). -/
def fpSign (i : Instr) (F : Fmt) (sign : Bool → Bool → Bool) (rd rs1 rs2 : Reg) (s : State) : Result :=
  let a := s.readFp F rs1
  let b := s.readFp F rs2
  legal i s (fpResult i F rd (F.withSign a (sign (F.signBit a) (F.signBit b)), flagNone) s)

/-- FMIN, FMAX (R427, R428). -/
def fpChoose (i : Instr) (F : Fmt) (op : BitVec F.width → BitVec F.width → BitVec F.width × FFlags)
    (rd rs1 rs2 : Reg) (s : State) : Result :=
  legal i s (fpResult i F rd (op (s.readFp F rs1) (s.readFp F rs2)) s)

/-- FEQ, FLT, FLE: 1 or 0 to `x[rd]` (R441 to R444). -/
def fpCompare (i : Instr) (F : Fmt) (op : BitVec F.width → BitVec F.width → Bool × FFlags) (rd rs1 rs2 : Reg)
    (s : State) : Result :=
  let r := op (s.readFp F rs1) (s.readFp F rs2)
  legal i s (intResult i rd (if r.1 then 1#64 else 0#64) r.2 s)

/-- FCLASS: no flag (R445). -/
def fpClass (i : Instr) (F : Fmt) (rd rs1 : Reg) (s : State) : Result :=
  legal i s (intResult i rd (BitVec.ofNat 64 (F.classMask (s.readFp F rs1))) flagNone s)

/-- FCVT to an `n`-bit integer; the `n`-bit result is sign-extended, also the unsigned one (R429 to R433). -/
def fpToInt (i : Instr) (F : Fmt) (n : Nat) (sgn : Bool) (rd rs1 : Reg) (rm : BitVec 3) (s : State) : Result :=
  withRounding i rm s fun m =>
    let r := F.toInt m n sgn (s.readFp F rs1)
    intResult i rd (r.1.signExtend 64) r.2 s

/-- FCVT from the low `n` bits of an integer register (R434 to R438). -/
def fpOfInt (i : Instr) (F : Fmt) (n : Nat) (sgn : Bool) (rd rs1 : Reg) (rm : BitVec 3) (s : State) : Result :=
  withRounding i rm s fun m =>
    let v := (s.readX rs1).setWidth n
    fpResult i F rd (F.ofInt m (if sgn then v.toInt else (v.toNat : Int))) s

/-- FCVT from the format `G` to the format `F` (47_d.md R471 to R473). -/
def fpConvert (i : Instr) (F G : Fmt) (rd rs1 : Reg) (rm : BitVec 3) (s : State) : Result :=
  withRounding i rm s fun m => fpResult i F rd (F.ofFormat G m (s.readFp G rs1)) s

/-- FMV.X.*: the raw low bits, sign-extended (46_f.md R439; 47_d.md R453). -/
def fpMoveToX (i : Instr) (F : Fmt) (rd rs1 : Reg) (s : State) : Result :=
  legal i s (retire i (s.writeX rd ((s.rawFp F rs1).signExtend 64)))

/-- FMV.*.X: the low bits, boxed (46_f.md R440; 47_d.md R453). -/
def fpMoveFromX (i : Instr) (F : Fmt) (rd rs1 : Reg) (s : State) : Result :=
  legal i s (retire i (s.writeFp F rd ((s.readX rs1).setWidth F.width)))

/-- FLW, FLD, FLQ and their compressed forms: the bits are not modified (46_f.md R411; 47_d.md R453). -/
def fpLoad (i : Instr) (F : Fmt) (rd : Reg) (ea : Word) (s : State) : Result :=
  legal i s (load i (F.width / 8) ea (fun v t => t.writeFp F rd (v.setWidth F.width)) s)

/-- FSW, FSD, FSQ and their compressed forms: the raw low bits (46_f.md R412; 47_d.md R453). -/
def fpStore (i : Instr) (F : Fmt) (rs2 : Reg) (ea : Word) (s : State) : Result :=
  legal i s (store i (F.width / 8) ea ((s.rawFp F rs2).setWidth (8 * (F.width / 8))) s)

end Sys2Proof.Machine
end

