-- ==== Sys2Proof/Machine/Compressed.lean ====
section
/-! DEFINITION. The meanings of C (spec 49_c.md). Each instruction is its expansion with a length of 2 bytes (R532);
`x2` is the stack pointer of the C instructions. -/

namespace Sys2Proof.Machine

/-- illegal__all_zero: the defined illegal instruction raises IllegalInstruction (30_encoding.md R152) (49_c.md
R535). -/
def execIllegalAllZero (s : State) : Result := illegal .illegalAllZero s

/-- C.ADDI4SPN: executes as `addi rd′, x2, nzuimm` (49_c.md R540). -/
def execCAddi4spn (rd : CReg) (imm : BitVec 8) (s : State) : Result :=
  opImm (.cAddi4spn rd imm) aluAdd rd.full 2#5 (scaled 2 imm) s

/-- C.FLD: executes as `fld rd′, uimm(rs1′)` (49_c.md R541). -/
def execCFld (rd rs1 : CReg) (imm : BitVec 5) (s : State) : Result :=
  fpLoad (.cFld rd rs1 imm) .d rd.full (s.eaScaled rs1.full (scaled 3 imm)) s

/-- C.LW: executes as `lw rd′, uimm(rs1′)` (49_c.md R542). -/
def execCLw (rd rs1 : CReg) (imm : BitVec 5) (s : State) : Result :=
  loadX (.cLw rd rs1 imm) 4 true rd.full (s.eaScaled rs1.full (scaled 2 imm)) s

/-- C.FLW: executes as `flw rd′, uimm(rs1′)` (49_c.md R543). -/
def execCFlw (rd rs1 : CReg) (imm : BitVec 5) (s : State) : Result :=
  fpLoad (.cFlw rd rs1 imm) .s rd.full (s.eaScaled rs1.full (scaled 2 imm)) s

/-- C.LD: executes as `ld rd′, uimm(rs1′)` (49_c.md R544). -/
def execCLd (rd rs1 : CReg) (imm : BitVec 5) (s : State) : Result :=
  loadX (.cLd rd rs1 imm) 8 true rd.full (s.eaScaled rs1.full (scaled 3 imm)) s

/-- C.FSD: executes as `fsd rs2′, uimm(rs1′)` (49_c.md R545). -/
def execCFsd (rs1 rs2 : CReg) (imm : BitVec 5) (s : State) : Result :=
  fpStore (.cFsd rs1 rs2 imm) .d rs2.full (s.eaScaled rs1.full (scaled 3 imm)) s

/-- C.SW: executes as `sw rs2′, uimm(rs1′)` (49_c.md R546). -/
def execCSw (rs1 rs2 : CReg) (imm : BitVec 5) (s : State) : Result :=
  storeX (.cSw rs1 rs2 imm) 4 rs2.full (s.eaScaled rs1.full (scaled 2 imm)) s

/-- C.FSW: executes as `fsw rs2′, uimm(rs1′)` (49_c.md R547). -/
def execCFsw (rs1 rs2 : CReg) (imm : BitVec 5) (s : State) : Result :=
  fpStore (.cFsw rs1 rs2 imm) .s rs2.full (s.eaScaled rs1.full (scaled 2 imm)) s

/-- C.SD: executes as `sd rs2′, uimm(rs1′)` (49_c.md R548). -/
def execCSd (rs1 rs2 : CReg) (imm : BitVec 5) (s : State) : Result :=
  storeX (.cSd rs1 rs2 imm) 8 rs2.full (s.eaScaled rs1.full (scaled 3 imm)) s

/-- C.NOP: executes as `addi x0, x0, imm` (49_c.md R549). -/
def execCNop (imm : BitVec 6) (s : State) : Result := opImm (.cNop imm) aluAdd 0#5 0#5 (s.cfg.sext imm) s

/-- C.ADDI: executes as `addi rd, rd, imm` (49_c.md R550). -/
def execCAddi (rd : Reg) (imm : BitVec 6) (s : State) : Result :=
  opImm (.cAddi rd imm) aluAdd rd rd (s.cfg.sext imm) s

/-- C.JAL: executes as `jal x1, off` with the link `pc + 2` (49_c.md R551). -/
def execCJal (offset : BitVec 11) (s : State) : Result := jumpLink (.cJal offset) 1#5 (s.target offset) s

/-- C.ADDIW: executes as `addiw rd, rd, imm` (49_c.md R552). -/
def execCAddiw (rd : Reg) (imm : BitVec 6) (s : State) : Result :=
  opImmW (.cAddiw rd imm) aluAdd rd rd (s.cfg.sext imm) s

/-- C.LI: executes as `addi rd, x0, imm` (49_c.md R553). -/
def execCLi (rd : Reg) (imm : BitVec 6) (s : State) : Result := opImm (.cLi rd imm) aluAdd rd 0#5 (s.cfg.sext imm) s

/-- C.ADDI16SP: executes as `addi x2, x2, nzimm` (49_c.md R554). -/
def execCAddi16sp (imm : BitVec 6) (s : State) : Result :=
  opImm (.cAddi16sp imm) aluAdd 2#5 2#5 (s.cfg.sext (imm ++ 0#4)) s

/-- C.LUI: executes as `lui rd, nzimm` (49_c.md R555). -/
def execCLui (rd : Reg) (imm : BitVec 6) (s : State) : Result :=
  setReg (.cLui rd imm) rd (s.cfg.sext (imm ++ 0#12)) s

/-- C.SRLI: executes as `srli rd′, rd′, shamt` (49_c.md R556). -/
def execCSrli (rd : CReg) (shamt : BitVec 6) (s : State) : Result :=
  opImm (.cSrli rd shamt) aluSrl rd.full rd.full (zext shamt) s

/-- C.SRAI: executes as `srai rd′, rd′, shamt` (49_c.md R557). -/
def execCSrai (rd : CReg) (shamt : BitVec 6) (s : State) : Result :=
  opImm (.cSrai rd shamt) aluSra rd.full rd.full (zext shamt) s

/-- C.ANDI: executes as `andi rd′, rd′, imm` (49_c.md R558). -/
def execCAndi (rd : CReg) (imm : BitVec 6) (s : State) : Result :=
  opImm (.cAndi rd imm) aluAnd rd.full rd.full (s.cfg.sext imm) s

/-- C.SUB: executes as `sub rd′, rd′, rs2′` (49_c.md R559). -/
def execCSub (rd rs2 : CReg) (s : State) : Result := opReg (.cSub rd rs2) aluSub rd.full rd.full rs2.full s

/-- C.XOR: executes as `xor rd′, rd′, rs2′` (49_c.md R560). -/
def execCXor (rd rs2 : CReg) (s : State) : Result := opReg (.cXor rd rs2) aluXor rd.full rd.full rs2.full s

/-- C.OR: executes as `or rd′, rd′, rs2′` (49_c.md R561). -/
def execCOr (rd rs2 : CReg) (s : State) : Result := opReg (.cOr rd rs2) aluOr rd.full rd.full rs2.full s

/-- C.AND: executes as `and rd′, rd′, rs2′` (49_c.md R562). -/
def execCAnd (rd rs2 : CReg) (s : State) : Result := opReg (.cAnd rd rs2) aluAnd rd.full rd.full rs2.full s

/-- C.SUBW: executes as `subw rd′, rd′, rs2′` (49_c.md R563). -/
def execCSubw (rd rs2 : CReg) (s : State) : Result := opRegW (.cSubw rd rs2) aluSub rd.full rd.full rs2.full s

/-- C.ADDW: executes as `addw rd′, rd′, rs2′` (49_c.md R564). -/
def execCAddw (rd rs2 : CReg) (s : State) : Result := opRegW (.cAddw rd rs2) aluAdd rd.full rd.full rs2.full s

/-- C.J: executes as `jal x0, off` (49_c.md R565). -/
def execCJ (offset : BitVec 11) (s : State) : Result := jumpLink (.cJ offset) 0#5 (s.target offset) s

/-- C.BEQZ: executes as `beq rs1′, x0, off` (49_c.md R566). -/
def execCBeqz (rs1 : CReg) (offset : BitVec 8) (s : State) : Result :=
  branch (.cBeqz rs1 offset) testEq rs1.full 0#5 (s.target offset) s

/-- C.BNEZ: executes as `bne rs1′, x0, off` (49_c.md R567). -/
def execCBnez (rs1 : CReg) (offset : BitVec 8) (s : State) : Result :=
  branch (.cBnez rs1 offset) testNe rs1.full 0#5 (s.target offset) s

/-- C.SLLI: executes as `slli rd, rd, shamt` (49_c.md R568). -/
def execCSlli (rd : Reg) (shamt : BitVec 6) (s : State) : Result :=
  opImm (.cSlli rd shamt) aluSll rd rd (zext shamt) s

/-- C.FLDSP: executes as `fld rd, uimm(x2)` (49_c.md R569). -/
def execCFldsp (rd : Reg) (imm : BitVec 6) (s : State) : Result :=
  fpLoad (.cFldsp rd imm) .d rd (s.eaScaled 2#5 (scaled 3 imm)) s

/-- C.LWSP: executes as `lw rd, uimm(x2)` (49_c.md R570). -/
def execCLwsp (rd : Reg) (imm : BitVec 6) (s : State) : Result :=
  loadX (.cLwsp rd imm) 4 true rd (s.eaScaled 2#5 (scaled 2 imm)) s

/-- C.FLWSP: executes as `flw rd, uimm(x2)` (49_c.md R571). -/
def execCFlwsp (rd : Reg) (imm : BitVec 6) (s : State) : Result :=
  fpLoad (.cFlwsp rd imm) .s rd (s.eaScaled 2#5 (scaled 2 imm)) s

/-- C.LDSP: executes as `ld rd, uimm(x2)` (49_c.md R572). -/
def execCLdsp (rd : Reg) (imm : BitVec 6) (s : State) : Result :=
  loadX (.cLdsp rd imm) 8 true rd (s.eaScaled 2#5 (scaled 3 imm)) s

/-- C.JR: executes as `jalr x0, 0(rs1)` (49_c.md R573). -/
def execCJr (rs1 : Reg) (s : State) : Result := jumpLink (.cJr rs1) 0#5 (clearBit0 (s.readX rs1)) s

/-- C.MV: executes as `add rd, x0, rs2` (49_c.md R574). -/
def execCMv (rd rs2 : Reg) (s : State) : Result := opReg (.cMv rd rs2) aluAdd rd 0#5 rs2 s

/-- C.EBREAK: raises Breakpoint, as EBREAK, `ilen` 2 (49_c.md R575). -/
def execCEbreak (s : State) : Result := legal .cEbreak s (raise .breakpoint 0#64 (Instr.ilen .cEbreak) s)

/-- C.JALR: executes as `jalr x1, 0(rs1)` with the link `pc + 2` (49_c.md R576). -/
def execCJalr (rs1 : Reg) (s : State) : Result := jumpLink (.cJalr rs1) 1#5 (clearBit0 (s.readX rs1)) s

/-- C.ADD: executes as `add rd, rd, rs2` (49_c.md R577). -/
def execCAdd (rd rs2 : Reg) (s : State) : Result := opReg (.cAdd rd rs2) aluAdd rd rd rs2 s

/-- C.FSDSP: executes as `fsd rs2, uimm(x2)` (49_c.md R578). -/
def execCFsdsp (rs2 : Reg) (imm : BitVec 6) (s : State) : Result :=
  fpStore (.cFsdsp rs2 imm) .d rs2 (s.eaScaled 2#5 (scaled 3 imm)) s

/-- C.SWSP: executes as `sw rs2, uimm(x2)` (49_c.md R579). -/
def execCSwsp (rs2 : Reg) (imm : BitVec 6) (s : State) : Result :=
  storeX (.cSwsp rs2 imm) 4 rs2 (s.eaScaled 2#5 (scaled 2 imm)) s

/-- C.FSWSP: executes as `fsw rs2, uimm(x2)` (49_c.md R580). -/
def execCFswsp (rs2 : Reg) (imm : BitVec 6) (s : State) : Result :=
  fpStore (.cFswsp rs2 imm) .s rs2 (s.eaScaled 2#5 (scaled 2 imm)) s

/-- C.SDSP: executes as `sd rs2, uimm(x2)` (49_c.md R581). -/
def execCSdsp (rs2 : Reg) (imm : BitVec 6) (s : State) : Result :=
  storeX (.cSdsp rs2 imm) 8 rs2 (s.eaScaled 2#5 (scaled 3 imm)) s

/-- C.SLLI64__HINT: a HINT on RV32 and RV64: no effect (49_c.md R534). -/
def execCSlli64 (rd : Reg) (s : State) : Result := noEffect (.cSlli64 rd) s

/-- C.SRLI64__HINT: a HINT on RV32 and RV64: no effect (49_c.md R534). -/
def execCSrli64 (rd : CReg) (s : State) : Result := noEffect (.cSrli64 rd) s

/-- C.SRAI64__HINT: a HINT on RV32 and RV64: no effect (49_c.md R534). -/
def execCSrai64 (rd : CReg) (s : State) : Result := noEffect (.cSrai64 rd) s

/-- C.LQ: an RV128 row, in no admitted configuration: raises IllegalInstruction (93_implementation_defined.md U17;
log 21) (49_c.md R586). -/
def execCLq (rd rs1 : CReg) (imm : BitVec 5) (s : State) : Result := illegal (.cLq rd rs1 imm) s

/-- C.SQ: an RV128 row, in no admitted configuration: raises IllegalInstruction (93_implementation_defined.md U17;
log 21) (49_c.md R587). -/
def execCSq (rs1 rs2 : CReg) (imm : BitVec 5) (s : State) : Result := illegal (.cSq rs1 rs2 imm) s

/-- C.LQSP: an RV128 row, in no admitted configuration: raises IllegalInstruction (93_implementation_defined.md U17;
log 21) (49_c.md R588). -/
def execCLqsp (rd : Reg) (imm : BitVec 6) (s : State) : Result := illegal (.cLqsp rd imm) s

/-- C.SQSP: an RV128 row, in no admitted configuration: raises IllegalInstruction (93_implementation_defined.md U17;
log 21) (49_c.md R589). -/
def execCSqsp (rs2 : Reg) (imm : BitVec 6) (s : State) : Result := illegal (.cSqsp rs2 imm) s

end Sys2Proof.Machine
end

