-- ==== Sys2Proof/Machine/Control.lean ====
section
/-! DEFINITION. The meanings of jumps, branches, fences and environment calls (spec
41_rv32i_control_memory_system.md). -/

namespace Sys2Proof.Machine

/-- JAL: link, then `pc + offset`; the target is checked before the link is written
(41_rv32i_control_memory_system.md R232). -/
def execJal (rd : Reg) (offset : BitVec 20) (s : State) : Result := jumpLink (.jal rd offset) rd (s.target offset) s

/-- JALR: link, then `(x[rs1] + sext(imm)) & ~1`; `x[rs1]` is read before the link is written
(41_rv32i_control_memory_system.md R234). -/
def execJalr (rd rs1 : Reg) (imm : BitVec 12) (s : State) : Result :=
  jumpLink (.jalr rd rs1 imm) rd (clearBit0 (s.ea rs1 imm)) s

/-- BEQ (41_rv32i_control_memory_system.md R236). -/
def execBeq (rs1 rs2 : Reg) (offset : BitVec 12) (s : State) : Result :=
  branch (.beq rs1 rs2 offset) testEq rs1 rs2 (s.target offset) s

/-- BNE (41_rv32i_control_memory_system.md R237). -/
def execBne (rs1 rs2 : Reg) (offset : BitVec 12) (s : State) : Result :=
  branch (.bne rs1 rs2 offset) testNe rs1 rs2 (s.target offset) s

/-- BLT (41_rv32i_control_memory_system.md R238). -/
def execBlt (rs1 rs2 : Reg) (offset : BitVec 12) (s : State) : Result :=
  branch (.blt rs1 rs2 offset) testLt rs1 rs2 (s.target offset) s

/-- BGE (41_rv32i_control_memory_system.md R239). -/
def execBge (rs1 rs2 : Reg) (offset : BitVec 12) (s : State) : Result :=
  branch (.bge rs1 rs2 offset) testGe rs1 rs2 (s.target offset) s

/-- BLTU (41_rv32i_control_memory_system.md R240). -/
def execBltu (rs1 rs2 : Reg) (offset : BitVec 12) (s : State) : Result :=
  branch (.bltu rs1 rs2 offset) testLtu rs1 rs2 (s.target offset) s

/-- BGEU (41_rv32i_control_memory_system.md R241). -/
def execBgeu (rs1 rs2 : Reg) (offset : BitVec 12) (s : State) : Result :=
  branch (.bgeu rs1 rs2 offset) testGeu rs1 rs2 (s.target offset) s

/-- FENCE: no effect on this hart; `fm`, `rs1` and `rd` are ignored (log 22) (41_rv32i_control_memory_system.md
R255). -/
def execFence (fm pred succ : BitVec 4) (rs1 rd : Reg) (s : State) : Result :=
  noEffect (.fence fm pred succ rs1 rd) s

/-- FENCE.TSO: no effect on this hart (log 22) (41_rv32i_control_memory_system.md R256). -/
def execFenceTso (s : State) : Result := noEffect .fenceTso s

/-- PAUSE: a HINT: no effect (41_rv32i_control_memory_system.md R262). -/
def execPause (s : State) : Result := noEffect .pause s

/-- FENCE.I: the older fetch candidates are discarded (20_memory.md R79); `imm`, `rs1` and `rd` are ignored
(41_rv32i_control_memory_system.md R260). -/
def execFenceI (imm : BitVec 12) (rs1 rd : Reg) (s : State) : Result :=
  legal (.fenceI imm rs1 rd) s (retire (.fenceI imm rs1 rd) { s with stale := [] })

/-- ECALL: raises EnvironmentCall, `tval` 0 (60_exceptions.md R609, R614) (41_rv32i_control_memory_system.md R257). -/
def execEcall (s : State) : Result := legal .ecall s (raise .environmentCall 0#64 (Instr.ilen .ecall) s)

/-- EBREAK: raises Breakpoint, `tval` 0 (60_exceptions.md R609, R615) (41_rv32i_control_memory_system.md R258). -/
def execEbreak (s : State) : Result := legal .ebreak s (raise .breakpoint 0#64 (Instr.ilen .ebreak) s)

end Sys2Proof.Machine
end

