-- ==== Sys2Proof/Machine/FloatD.lean ====
section
/-! DEFINITION. The meanings of D, double precision (spec 47_d.md). -/

namespace Sys2Proof.Machine

/-- FLD (47_d.md R455). -/
def execFld (rd rs1 : Reg) (imm : BitVec 12) (s : State) : Result := fpLoad (.fld rd rs1 imm) .d rd (s.ea rs1 imm) s

/-- FSD (47_d.md R456). -/
def execFsd (rs1 rs2 : Reg) (imm : BitVec 12) (s : State) : Result :=
  fpStore (.fsd rs1 rs2 imm) .d rs2 (s.ea rs1 imm) s

/-- FMADD.D (47_d.md R457). -/
def execFmaddD (rd rs1 rs2 rs3 : Reg) (rm : BitVec 3) (s : State) : Result :=
  fpFused (.fmaddD rd rs1 rs2 rs3 rm) .d false false rd rs1 rs2 rs3 rm s

/-- FMSUB.D (47_d.md R458). -/
def execFmsubD (rd rs1 rs2 rs3 : Reg) (rm : BitVec 3) (s : State) : Result :=
  fpFused (.fmsubD rd rs1 rs2 rs3 rm) .d false true rd rs1 rs2 rs3 rm s

/-- FNMSUB.D (47_d.md R459). -/
def execFnmsubD (rd rs1 rs2 rs3 : Reg) (rm : BitVec 3) (s : State) : Result :=
  fpFused (.fnmsubD rd rs1 rs2 rs3 rm) .d true false rd rs1 rs2 rs3 rm s

/-- FNMADD.D (47_d.md R460). -/
def execFnmaddD (rd rs1 rs2 rs3 : Reg) (rm : BitVec 3) (s : State) : Result :=
  fpFused (.fnmaddD rd rs1 rs2 rs3 rm) .d true true rd rs1 rs2 rs3 rm s

/-- FADD.D (47_d.md R461). -/
def execFaddD (rd rs1 rs2 : Reg) (rm : BitVec 3) (s : State) : Result :=
  fpBinary (.faddD rd rs1 rs2 rm) .d (Fmt.add .d) rd rs1 rs2 rm s

/-- FSUB.D (47_d.md R462). -/
def execFsubD (rd rs1 rs2 : Reg) (rm : BitVec 3) (s : State) : Result :=
  fpBinary (.fsubD rd rs1 rs2 rm) .d (Fmt.sub .d) rd rs1 rs2 rm s

/-- FMUL.D (47_d.md R463). -/
def execFmulD (rd rs1 rs2 : Reg) (rm : BitVec 3) (s : State) : Result :=
  fpBinary (.fmulD rd rs1 rs2 rm) .d (Fmt.mul .d) rd rs1 rs2 rm s

/-- FDIV.D (47_d.md R464). -/
def execFdivD (rd rs1 rs2 : Reg) (rm : BitVec 3) (s : State) : Result :=
  fpBinary (.fdivD rd rs1 rs2 rm) .d (Fmt.div .d) rd rs1 rs2 rm s

/-- FSQRT.D (47_d.md R465). -/
def execFsqrtD (rd rs1 : Reg) (rm : BitVec 3) (s : State) : Result := fpSqrt (.fsqrtD rd rs1 rm) .d rd rs1 rm s

/-- FSGNJ.D (47_d.md R466). -/
def execFsgnjD (rd rs1 rs2 : Reg) (s : State) : Result := fpSign (.fsgnjD rd rs1 rs2) .d (fun _ y => y) rd rs1 rs2 s

/-- FSGNJN.D (47_d.md R467). -/
def execFsgnjnD (rd rs1 rs2 : Reg) (s : State) : Result :=
  fpSign (.fsgnjnD rd rs1 rs2) .d (fun _ y => !y) rd rs1 rs2 s

/-- FSGNJX.D (47_d.md R468). -/
def execFsgnjxD (rd rs1 rs2 : Reg) (s : State) : Result :=
  fpSign (.fsgnjxD rd rs1 rs2) .d (fun x y => x != y) rd rs1 rs2 s

/-- FMIN.D (47_d.md R469). -/
def execFminD (rd rs1 rs2 : Reg) (s : State) : Result := fpChoose (.fminD rd rs1 rs2) .d (Fmt.min .d) rd rs1 rs2 s

/-- FMAX.D (47_d.md R470). -/
def execFmaxD (rd rs1 rs2 : Reg) (s : State) : Result := fpChoose (.fmaxD rd rs1 rs2) .d (Fmt.max .d) rd rs1 rs2 s

/-- FCVT.S.D (47_d.md R472). -/
def execFcvtSD (rd rs1 : Reg) (rm : BitVec 3) (s : State) : Result :=
  fpConvert (.fcvtSD rd rs1 rm) .s .d rd rs1 rm s

/-- FCVT.D.S (47_d.md R473). -/
def execFcvtDS (rd rs1 : Reg) (rm : BitVec 3) (s : State) : Result :=
  fpConvert (.fcvtDS rd rs1 rm) .d .s rd rs1 rm s

/-- FEQ.D (47_d.md R474). -/
def execFeqD (rd rs1 rs2 : Reg) (s : State) : Result := fpCompare (.feqD rd rs1 rs2) .d (Fmt.feq .d) rd rs1 rs2 s

/-- FLT.D (47_d.md R475). -/
def execFltD (rd rs1 rs2 : Reg) (s : State) : Result := fpCompare (.fltD rd rs1 rs2) .d (Fmt.flt .d) rd rs1 rs2 s

/-- FLE.D (47_d.md R476). -/
def execFleD (rd rs1 rs2 : Reg) (s : State) : Result := fpCompare (.fleD rd rs1 rs2) .d (Fmt.fle .d) rd rs1 rs2 s

/-- FCLASS.D (47_d.md R477). -/
def execFclassD (rd rs1 : Reg) (s : State) : Result := fpClass (.fclassD rd rs1) .d rd rs1 s

/-- FCVT.W.D (47_d.md R478). -/
def execFcvtWD (rd rs1 : Reg) (rm : BitVec 3) (s : State) : Result :=
  fpToInt (.fcvtWD rd rs1 rm) .d 32 true rd rs1 rm s

/-- FCVT.WU.D (47_d.md R479). -/
def execFcvtWUD (rd rs1 : Reg) (rm : BitVec 3) (s : State) : Result :=
  fpToInt (.fcvtWUD rd rs1 rm) .d 32 false rd rs1 rm s

/-- FCVT.D.W (47_d.md R480). -/
def execFcvtDW (rd rs1 : Reg) (rm : BitVec 3) (s : State) : Result :=
  fpOfInt (.fcvtDW rd rs1 rm) .d 32 true rd rs1 rm s

/-- FCVT.D.WU (47_d.md R481). -/
def execFcvtDWU (rd rs1 : Reg) (rm : BitVec 3) (s : State) : Result :=
  fpOfInt (.fcvtDWU rd rs1 rm) .d 32 false rd rs1 rm s

/-- FCVT.L.D (47_d.md R482). -/
def execFcvtLD (rd rs1 : Reg) (rm : BitVec 3) (s : State) : Result :=
  fpToInt (.fcvtLD rd rs1 rm) .d 64 true rd rs1 rm s

/-- FCVT.LU.D (47_d.md R483). -/
def execFcvtLUD (rd rs1 : Reg) (rm : BitVec 3) (s : State) : Result :=
  fpToInt (.fcvtLUD rd rs1 rm) .d 64 false rd rs1 rm s

/-- FMV.X.D (47_d.md R484). -/
def execFmvXD (rd rs1 : Reg) (s : State) : Result := fpMoveToX (.fmvXD rd rs1) .d rd rs1 s

/-- FCVT.D.L (47_d.md R485). -/
def execFcvtDL (rd rs1 : Reg) (rm : BitVec 3) (s : State) : Result :=
  fpOfInt (.fcvtDL rd rs1 rm) .d 64 true rd rs1 rm s

/-- FCVT.D.LU (47_d.md R486). -/
def execFcvtDLU (rd rs1 : Reg) (rm : BitVec 3) (s : State) : Result :=
  fpOfInt (.fcvtDLU rd rs1 rm) .d 64 false rd rs1 rm s

/-- FMV.D.X (47_d.md R487). -/
def execFmvDX (rd rs1 : Reg) (s : State) : Result := fpMoveFromX (.fmvDX rd rs1) .d rd rs1 s

end Sys2Proof.Machine
end

