-- ==== Sys2Proof/Machine/FloatQ.lean ====
section
/-! DEFINITION. The meanings of Q, quadruple precision (spec 48_q.md). -/

namespace Sys2Proof.Machine

/-- FLQ (48_q.md R492). -/
def execFlq (rd rs1 : Reg) (imm : BitVec 12) (s : State) : Result := fpLoad (.flq rd rs1 imm) .q rd (s.ea rs1 imm) s

/-- FSQ (48_q.md R493). -/
def execFsq (rs1 rs2 : Reg) (imm : BitVec 12) (s : State) : Result :=
  fpStore (.fsq rs1 rs2 imm) .q rs2 (s.ea rs1 imm) s

/-- FMADD.Q (48_q.md R494). -/
def execFmaddQ (rd rs1 rs2 rs3 : Reg) (rm : BitVec 3) (s : State) : Result :=
  fpFused (.fmaddQ rd rs1 rs2 rs3 rm) .q false false rd rs1 rs2 rs3 rm s

/-- FMSUB.Q (48_q.md R495). -/
def execFmsubQ (rd rs1 rs2 rs3 : Reg) (rm : BitVec 3) (s : State) : Result :=
  fpFused (.fmsubQ rd rs1 rs2 rs3 rm) .q false true rd rs1 rs2 rs3 rm s

/-- FNMSUB.Q (48_q.md R496). -/
def execFnmsubQ (rd rs1 rs2 rs3 : Reg) (rm : BitVec 3) (s : State) : Result :=
  fpFused (.fnmsubQ rd rs1 rs2 rs3 rm) .q true false rd rs1 rs2 rs3 rm s

/-- FNMADD.Q (48_q.md R497). -/
def execFnmaddQ (rd rs1 rs2 rs3 : Reg) (rm : BitVec 3) (s : State) : Result :=
  fpFused (.fnmaddQ rd rs1 rs2 rs3 rm) .q true true rd rs1 rs2 rs3 rm s

/-- FADD.Q (48_q.md R498). -/
def execFaddQ (rd rs1 rs2 : Reg) (rm : BitVec 3) (s : State) : Result :=
  fpBinary (.faddQ rd rs1 rs2 rm) .q (Fmt.add .q) rd rs1 rs2 rm s

/-- FSUB.Q (48_q.md R499). -/
def execFsubQ (rd rs1 rs2 : Reg) (rm : BitVec 3) (s : State) : Result :=
  fpBinary (.fsubQ rd rs1 rs2 rm) .q (Fmt.sub .q) rd rs1 rs2 rm s

/-- FMUL.Q (48_q.md R500). -/
def execFmulQ (rd rs1 rs2 : Reg) (rm : BitVec 3) (s : State) : Result :=
  fpBinary (.fmulQ rd rs1 rs2 rm) .q (Fmt.mul .q) rd rs1 rs2 rm s

/-- FDIV.Q (48_q.md R501). -/
def execFdivQ (rd rs1 rs2 : Reg) (rm : BitVec 3) (s : State) : Result :=
  fpBinary (.fdivQ rd rs1 rs2 rm) .q (Fmt.div .q) rd rs1 rs2 rm s

/-- FSQRT.Q (48_q.md R502). -/
def execFsqrtQ (rd rs1 : Reg) (rm : BitVec 3) (s : State) : Result := fpSqrt (.fsqrtQ rd rs1 rm) .q rd rs1 rm s

/-- FSGNJ.Q (48_q.md R503). -/
def execFsgnjQ (rd rs1 rs2 : Reg) (s : State) : Result := fpSign (.fsgnjQ rd rs1 rs2) .q (fun _ y => y) rd rs1 rs2 s

/-- FSGNJN.Q (48_q.md R504). -/
def execFsgnjnQ (rd rs1 rs2 : Reg) (s : State) : Result :=
  fpSign (.fsgnjnQ rd rs1 rs2) .q (fun _ y => !y) rd rs1 rs2 s

/-- FSGNJX.Q (48_q.md R505). -/
def execFsgnjxQ (rd rs1 rs2 : Reg) (s : State) : Result :=
  fpSign (.fsgnjxQ rd rs1 rs2) .q (fun x y => x != y) rd rs1 rs2 s

/-- FMIN.Q (48_q.md R506). -/
def execFminQ (rd rs1 rs2 : Reg) (s : State) : Result := fpChoose (.fminQ rd rs1 rs2) .q (Fmt.min .q) rd rs1 rs2 s

/-- FMAX.Q (48_q.md R507). -/
def execFmaxQ (rd rs1 rs2 : Reg) (s : State) : Result := fpChoose (.fmaxQ rd rs1 rs2) .q (Fmt.max .q) rd rs1 rs2 s

/-- FCVT.S.Q (48_q.md R508). -/
def execFcvtSQ (rd rs1 : Reg) (rm : BitVec 3) (s : State) : Result :=
  fpConvert (.fcvtSQ rd rs1 rm) .s .q rd rs1 rm s

/-- FCVT.Q.S (48_q.md R509). -/
def execFcvtQS (rd rs1 : Reg) (rm : BitVec 3) (s : State) : Result :=
  fpConvert (.fcvtQS rd rs1 rm) .q .s rd rs1 rm s

/-- FCVT.D.Q (48_q.md R510). -/
def execFcvtDQ (rd rs1 : Reg) (rm : BitVec 3) (s : State) : Result :=
  fpConvert (.fcvtDQ rd rs1 rm) .d .q rd rs1 rm s

/-- FCVT.Q.D (48_q.md R511). -/
def execFcvtQD (rd rs1 : Reg) (rm : BitVec 3) (s : State) : Result :=
  fpConvert (.fcvtQD rd rs1 rm) .q .d rd rs1 rm s

/-- FEQ.Q (48_q.md R512). -/
def execFeqQ (rd rs1 rs2 : Reg) (s : State) : Result := fpCompare (.feqQ rd rs1 rs2) .q (Fmt.feq .q) rd rs1 rs2 s

/-- FLT.Q (48_q.md R513). -/
def execFltQ (rd rs1 rs2 : Reg) (s : State) : Result := fpCompare (.fltQ rd rs1 rs2) .q (Fmt.flt .q) rd rs1 rs2 s

/-- FLE.Q (48_q.md R514). -/
def execFleQ (rd rs1 rs2 : Reg) (s : State) : Result := fpCompare (.fleQ rd rs1 rs2) .q (Fmt.fle .q) rd rs1 rs2 s

/-- FCLASS.Q (48_q.md R515). -/
def execFclassQ (rd rs1 : Reg) (s : State) : Result := fpClass (.fclassQ rd rs1) .q rd rs1 s

/-- FCVT.W.Q (48_q.md R516). -/
def execFcvtWQ (rd rs1 : Reg) (rm : BitVec 3) (s : State) : Result :=
  fpToInt (.fcvtWQ rd rs1 rm) .q 32 true rd rs1 rm s

/-- FCVT.WU.Q (48_q.md R517). -/
def execFcvtWUQ (rd rs1 : Reg) (rm : BitVec 3) (s : State) : Result :=
  fpToInt (.fcvtWUQ rd rs1 rm) .q 32 false rd rs1 rm s

/-- FCVT.Q.W (48_q.md R518). -/
def execFcvtQW (rd rs1 : Reg) (rm : BitVec 3) (s : State) : Result :=
  fpOfInt (.fcvtQW rd rs1 rm) .q 32 true rd rs1 rm s

/-- FCVT.Q.WU (48_q.md R519). -/
def execFcvtQWU (rd rs1 : Reg) (rm : BitVec 3) (s : State) : Result :=
  fpOfInt (.fcvtQWU rd rs1 rm) .q 32 false rd rs1 rm s

/-- FCVT.L.Q (48_q.md R520). -/
def execFcvtLQ (rd rs1 : Reg) (rm : BitVec 3) (s : State) : Result :=
  fpToInt (.fcvtLQ rd rs1 rm) .q 64 true rd rs1 rm s

/-- FCVT.LU.Q (48_q.md R521). -/
def execFcvtLUQ (rd rs1 : Reg) (rm : BitVec 3) (s : State) : Result :=
  fpToInt (.fcvtLUQ rd rs1 rm) .q 64 false rd rs1 rm s

/-- FCVT.Q.L (48_q.md R522). -/
def execFcvtQL (rd rs1 : Reg) (rm : BitVec 3) (s : State) : Result :=
  fpOfInt (.fcvtQL rd rs1 rm) .q 64 true rd rs1 rm s

/-- FCVT.Q.LU (48_q.md R523). -/
def execFcvtQLU (rd rs1 : Reg) (rm : BitVec 3) (s : State) : Result :=
  fpOfInt (.fcvtQLU rd rs1 rm) .q 64 false rd rs1 rm s

end Sys2Proof.Machine
end

