-- ==== Sys2Proof/Machine/FloatS.lean ====
section
/-! DEFINITION. The meanings of F, single precision (spec 46_f.md). -/

namespace Sys2Proof.Machine

/-- FLW (46_f.md R411). -/
def execFlw (rd rs1 : Reg) (imm : BitVec 12) (s : State) : Result := fpLoad (.flw rd rs1 imm) .s rd (s.ea rs1 imm) s

/-- FSW (46_f.md R412). -/
def execFsw (rs1 rs2 : Reg) (imm : BitVec 12) (s : State) : Result :=
  fpStore (.fsw rs1 rs2 imm) .s rs2 (s.ea rs1 imm) s

/-- FMADD.S (46_f.md R420). -/
def execFmaddS (rd rs1 rs2 rs3 : Reg) (rm : BitVec 3) (s : State) : Result :=
  fpFused (.fmaddS rd rs1 rs2 rs3 rm) .s false false rd rs1 rs2 rs3 rm s

/-- FMSUB.S (46_f.md R421). -/
def execFmsubS (rd rs1 rs2 rs3 : Reg) (rm : BitVec 3) (s : State) : Result :=
  fpFused (.fmsubS rd rs1 rs2 rs3 rm) .s false true rd rs1 rs2 rs3 rm s

/-- FNMSUB.S (46_f.md R422). -/
def execFnmsubS (rd rs1 rs2 rs3 : Reg) (rm : BitVec 3) (s : State) : Result :=
  fpFused (.fnmsubS rd rs1 rs2 rs3 rm) .s true false rd rs1 rs2 rs3 rm s

/-- FNMADD.S (46_f.md R423). -/
def execFnmaddS (rd rs1 rs2 rs3 : Reg) (rm : BitVec 3) (s : State) : Result :=
  fpFused (.fnmaddS rd rs1 rs2 rs3 rm) .s true true rd rs1 rs2 rs3 rm s

/-- FADD.S (46_f.md R414). -/
def execFaddS (rd rs1 rs2 : Reg) (rm : BitVec 3) (s : State) : Result :=
  fpBinary (.faddS rd rs1 rs2 rm) .s (Fmt.add .s) rd rs1 rs2 rm s

/-- FSUB.S (46_f.md R415). -/
def execFsubS (rd rs1 rs2 : Reg) (rm : BitVec 3) (s : State) : Result :=
  fpBinary (.fsubS rd rs1 rs2 rm) .s (Fmt.sub .s) rd rs1 rs2 rm s

/-- FMUL.S (46_f.md R416). -/
def execFmulS (rd rs1 rs2 : Reg) (rm : BitVec 3) (s : State) : Result :=
  fpBinary (.fmulS rd rs1 rs2 rm) .s (Fmt.mul .s) rd rs1 rs2 rm s

/-- FDIV.S (46_f.md R417). -/
def execFdivS (rd rs1 rs2 : Reg) (rm : BitVec 3) (s : State) : Result :=
  fpBinary (.fdivS rd rs1 rs2 rm) .s (Fmt.div .s) rd rs1 rs2 rm s

/-- FSQRT.S (46_f.md R418). -/
def execFsqrtS (rd rs1 : Reg) (rm : BitVec 3) (s : State) : Result := fpSqrt (.fsqrtS rd rs1 rm) .s rd rs1 rm s

/-- FSGNJ.S (46_f.md R424). -/
def execFsgnjS (rd rs1 rs2 : Reg) (s : State) : Result := fpSign (.fsgnjS rd rs1 rs2) .s (fun _ y => y) rd rs1 rs2 s

/-- FSGNJN.S (46_f.md R425). -/
def execFsgnjnS (rd rs1 rs2 : Reg) (s : State) : Result :=
  fpSign (.fsgnjnS rd rs1 rs2) .s (fun _ y => !y) rd rs1 rs2 s

/-- FSGNJX.S (46_f.md R426). -/
def execFsgnjxS (rd rs1 rs2 : Reg) (s : State) : Result :=
  fpSign (.fsgnjxS rd rs1 rs2) .s (fun x y => x != y) rd rs1 rs2 s

/-- FMIN.S (46_f.md R427). -/
def execFminS (rd rs1 rs2 : Reg) (s : State) : Result := fpChoose (.fminS rd rs1 rs2) .s (Fmt.min .s) rd rs1 rs2 s

/-- FMAX.S (46_f.md R428). -/
def execFmaxS (rd rs1 rs2 : Reg) (s : State) : Result := fpChoose (.fmaxS rd rs1 rs2) .s (Fmt.max .s) rd rs1 rs2 s

/-- FCVT.W.S (46_f.md R430). -/
def execFcvtWS (rd rs1 : Reg) (rm : BitVec 3) (s : State) : Result :=
  fpToInt (.fcvtWS rd rs1 rm) .s 32 true rd rs1 rm s

/-- FCVT.WU.S (46_f.md R431). -/
def execFcvtWUS (rd rs1 : Reg) (rm : BitVec 3) (s : State) : Result :=
  fpToInt (.fcvtWUS rd rs1 rm) .s 32 false rd rs1 rm s

/-- FMV.X.W (46_f.md R439). -/
def execFmvXW (rd rs1 : Reg) (s : State) : Result := fpMoveToX (.fmvXW rd rs1) .s rd rs1 s

/-- FEQ.S (46_f.md R442). -/
def execFeqS (rd rs1 rs2 : Reg) (s : State) : Result := fpCompare (.feqS rd rs1 rs2) .s (Fmt.feq .s) rd rs1 rs2 s

/-- FLT.S (46_f.md R443). -/
def execFltS (rd rs1 rs2 : Reg) (s : State) : Result := fpCompare (.fltS rd rs1 rs2) .s (Fmt.flt .s) rd rs1 rs2 s

/-- FLE.S (46_f.md R444). -/
def execFleS (rd rs1 rs2 : Reg) (s : State) : Result := fpCompare (.fleS rd rs1 rs2) .s (Fmt.fle .s) rd rs1 rs2 s

/-- FCLASS.S (46_f.md R445). -/
def execFclassS (rd rs1 : Reg) (s : State) : Result := fpClass (.fclassS rd rs1) .s rd rs1 s

/-- FCVT.S.W (46_f.md R435). -/
def execFcvtSW (rd rs1 : Reg) (rm : BitVec 3) (s : State) : Result :=
  fpOfInt (.fcvtSW rd rs1 rm) .s 32 true rd rs1 rm s

/-- FCVT.S.WU (46_f.md R436). -/
def execFcvtSWU (rd rs1 : Reg) (rm : BitVec 3) (s : State) : Result :=
  fpOfInt (.fcvtSWU rd rs1 rm) .s 32 false rd rs1 rm s

/-- FMV.W.X (46_f.md R440). -/
def execFmvWX (rd rs1 : Reg) (s : State) : Result := fpMoveFromX (.fmvWX rd rs1) .s rd rs1 s

/-- FCVT.L.S (46_f.md R432). -/
def execFcvtLS (rd rs1 : Reg) (rm : BitVec 3) (s : State) : Result :=
  fpToInt (.fcvtLS rd rs1 rm) .s 64 true rd rs1 rm s

/-- FCVT.LU.S (46_f.md R433). -/
def execFcvtLUS (rd rs1 : Reg) (rm : BitVec 3) (s : State) : Result :=
  fpToInt (.fcvtLUS rd rs1 rm) .s 64 false rd rs1 rm s

/-- FCVT.S.L (46_f.md R437). -/
def execFcvtSL (rd rs1 : Reg) (rm : BitVec 3) (s : State) : Result :=
  fpOfInt (.fcvtSL rd rs1 rm) .s 64 true rd rs1 rm s

/-- FCVT.S.LU (46_f.md R438). -/
def execFcvtSLU (rd rs1 : Reg) (rm : BitVec 3) (s : State) : Result :=
  fpOfInt (.fcvtSLU rd rs1 rm) .s 64 false rd rs1 rm s

end Sys2Proof.Machine
end

