-- ==== Sys2Proof/Machine/Integer.lean ====
section
/-! DEFINITION. The meanings of the integer computational instructions of RV32I (spec 40_rv32i_integer.md; at XLEN =
64 with 42_rv32e_rv64i_rv128i.md R276). An instruction whose `rd` is x0 is a HINT or NOP: it writes nothing
(30_encoding.md R180). -/

namespace Sys2Proof.Machine

/-- LUI: `x[rd] <- sext(imm ++ 0^12)` (40_rv32i_integer.md R201). -/
def execLui (rd : Reg) (imm : BitVec 20) (s : State) : Result := setReg (.lui rd imm) rd (s.cfg.immU imm) s

/-- AUIPC: `x[rd] <- pc + sext(imm ++ 0^12)` (40_rv32i_integer.md R202). -/
def execAuipc (rd : Reg) (imm : BitVec 20) (s : State) : Result :=
  setReg (.auipc rd imm) rd (s.cfg.addX s.pc (s.cfg.immU imm)) s

/-- ADDI (40_rv32i_integer.md R203). -/
def execAddi (rd rs1 : Reg) (imm : BitVec 12) (s : State) : Result :=
  opImm (.addi rd rs1 imm) aluAdd rd rs1 (s.cfg.sext imm) s

/-- SLTI (40_rv32i_integer.md R204). -/
def execSlti (rd rs1 : Reg) (imm : BitVec 12) (s : State) : Result :=
  opImm (.slti rd rs1 imm) aluSlt rd rs1 (s.cfg.sext imm) s

/-- SLTIU (40_rv32i_integer.md R205). -/
def execSltiu (rd rs1 : Reg) (imm : BitVec 12) (s : State) : Result :=
  opImm (.sltiu rd rs1 imm) aluSltu rd rs1 (s.cfg.sext imm) s

/-- XORI (40_rv32i_integer.md R206). -/
def execXori (rd rs1 : Reg) (imm : BitVec 12) (s : State) : Result :=
  opImm (.xori rd rs1 imm) aluXor rd rs1 (s.cfg.sext imm) s

/-- ORI (40_rv32i_integer.md R208). -/
def execOri (rd rs1 : Reg) (imm : BitVec 12) (s : State) : Result :=
  opImm (.ori rd rs1 imm) aluOr rd rs1 (s.cfg.sext imm) s

/-- ANDI (40_rv32i_integer.md R209). -/
def execAndi (rd rs1 : Reg) (imm : BitVec 12) (s : State) : Result :=
  opImm (.andi rd rs1 imm) aluAnd rd rs1 (s.cfg.sext imm) s

/-- SLLI (40_rv32i_integer.md R210). -/
def execSlli (rd rs1 : Reg) (shamt : BitVec 6) (s : State) : Result :=
  opImm (.slli rd rs1 shamt) aluSll rd rs1 (zext shamt) s

/-- SRLI (40_rv32i_integer.md R211). -/
def execSrli (rd rs1 : Reg) (shamt : BitVec 6) (s : State) : Result :=
  opImm (.srli rd rs1 shamt) aluSrl rd rs1 (zext shamt) s

/-- SRAI (40_rv32i_integer.md R212). -/
def execSrai (rd rs1 : Reg) (shamt : BitVec 6) (s : State) : Result :=
  opImm (.srai rd rs1 shamt) aluSra rd rs1 (zext shamt) s

/-- ADD (40_rv32i_integer.md R213). -/
def execAdd (rd rs1 rs2 : Reg) (s : State) : Result := opReg (.add rd rs1 rs2) aluAdd rd rs1 rs2 s

/-- SUB (40_rv32i_integer.md R214). -/
def execSub (rd rs1 rs2 : Reg) (s : State) : Result := opReg (.sub rd rs1 rs2) aluSub rd rs1 rs2 s

/-- SLL (40_rv32i_integer.md R215). -/
def execSll (rd rs1 rs2 : Reg) (s : State) : Result := opReg (.sll rd rs1 rs2) aluSll rd rs1 rs2 s

/-- SLT (40_rv32i_integer.md R216). -/
def execSlt (rd rs1 rs2 : Reg) (s : State) : Result := opReg (.slt rd rs1 rs2) aluSlt rd rs1 rs2 s

/-- SLTU (40_rv32i_integer.md R217). -/
def execSltu (rd rs1 rs2 : Reg) (s : State) : Result := opReg (.sltu rd rs1 rs2) aluSltu rd rs1 rs2 s

/-- XOR (40_rv32i_integer.md R218). -/
def execXor (rd rs1 rs2 : Reg) (s : State) : Result := opReg (.xor rd rs1 rs2) aluXor rd rs1 rs2 s

/-- SRL (40_rv32i_integer.md R219). -/
def execSrl (rd rs1 rs2 : Reg) (s : State) : Result := opReg (.srl rd rs1 rs2) aluSrl rd rs1 rs2 s

/-- SRA (40_rv32i_integer.md R220). -/
def execSra (rd rs1 rs2 : Reg) (s : State) : Result := opReg (.sra rd rs1 rs2) aluSra rd rs1 rs2 s

/-- OR (40_rv32i_integer.md R221). -/
def execOr (rd rs1 rs2 : Reg) (s : State) : Result := opReg (.or rd rs1 rs2) aluOr rd rs1 rs2 s

/-- AND (40_rv32i_integer.md R222). -/
def execAnd (rd rs1 rs2 : Reg) (s : State) : Result := opReg (.and rd rs1 rs2) aluAnd rd rs1 rs2 s

end Sys2Proof.Machine
end

