-- ==== Sys2Proof/Machine/LoadStore.lean ====
section
/-! DEFINITION. The meanings of the integer loads and stores (spec 41_rv32i_control_memory_system.md R242 to R251;
42_rv32e_rv64i_rv128i.md R288 to R290). -/

namespace Sys2Proof.Machine

/-- LB (41_rv32i_control_memory_system.md R243). -/
def execLb (rd rs1 : Reg) (imm : BitVec 12) (s : State) : Result :=
  loadX (.lb rd rs1 imm) 1 true rd (s.ea rs1 imm) s

/-- LH (41_rv32i_control_memory_system.md R244). -/
def execLh (rd rs1 : Reg) (imm : BitVec 12) (s : State) : Result :=
  loadX (.lh rd rs1 imm) 2 true rd (s.ea rs1 imm) s

/-- LW (41_rv32i_control_memory_system.md R245). -/
def execLw (rd rs1 : Reg) (imm : BitVec 12) (s : State) : Result :=
  loadX (.lw rd rs1 imm) 4 true rd (s.ea rs1 imm) s

/-- LBU (41_rv32i_control_memory_system.md R246). -/
def execLbu (rd rs1 : Reg) (imm : BitVec 12) (s : State) : Result :=
  loadX (.lbu rd rs1 imm) 1 false rd (s.ea rs1 imm) s

/-- LHU (41_rv32i_control_memory_system.md R247). -/
def execLhu (rd rs1 : Reg) (imm : BitVec 12) (s : State) : Result :=
  loadX (.lhu rd rs1 imm) 2 false rd (s.ea rs1 imm) s

/-- SB (41_rv32i_control_memory_system.md R249). -/
def execSb (rs1 rs2 : Reg) (imm : BitVec 12) (s : State) : Result := storeX (.sb rs1 rs2 imm) 1 rs2 (s.ea rs1 imm) s

/-- SH (41_rv32i_control_memory_system.md R250). -/
def execSh (rs1 rs2 : Reg) (imm : BitVec 12) (s : State) : Result := storeX (.sh rs1 rs2 imm) 2 rs2 (s.ea rs1 imm) s

/-- SW (41_rv32i_control_memory_system.md R251). -/
def execSw (rs1 rs2 : Reg) (imm : BitVec 12) (s : State) : Result := storeX (.sw rs1 rs2 imm) 4 rs2 (s.ea rs1 imm) s

/-- LWU (42_rv32e_rv64i_rv128i.md R288). -/
def execLwu (rd rs1 : Reg) (imm : BitVec 12) (s : State) : Result :=
  loadX (.lwu rd rs1 imm) 4 false rd (s.ea rs1 imm) s

/-- LD (42_rv32e_rv64i_rv128i.md R289). -/
def execLd (rd rs1 : Reg) (imm : BitVec 12) (s : State) : Result :=
  loadX (.ld rd rs1 imm) 8 true rd (s.ea rs1 imm) s

/-- SD (42_rv32e_rv64i_rv128i.md R290). -/
def execSd (rs1 rs2 : Reg) (imm : BitVec 12) (s : State) : Result := storeX (.sd rs1 rs2 imm) 8 rs2 (s.ea rs1 imm) s

end Sys2Proof.Machine
end

