-- ==== Sys2Proof/Machine/MulDiv.lean ====
section
/-! DEFINITION. The meanings of M and Zmmul (spec 43_m.md). -/

namespace Sys2Proof.Machine

/-- MUL (43_m.md R312). -/
def execMul (rd rs1 rs2 : Reg) (s : State) : Result := opReg (.mul rd rs1 rs2) aluMul rd rs1 rs2 s

/-- MULH (43_m.md R313). -/
def execMulh (rd rs1 rs2 : Reg) (s : State) : Result := opReg (.mulh rd rs1 rs2) aluMulh rd rs1 rs2 s

/-- MULHSU (43_m.md R314). -/
def execMulhsu (rd rs1 rs2 : Reg) (s : State) : Result := opReg (.mulhsu rd rs1 rs2) aluMulhsu rd rs1 rs2 s

/-- MULHU (43_m.md R315). -/
def execMulhu (rd rs1 rs2 : Reg) (s : State) : Result := opReg (.mulhu rd rs1 rs2) aluMulhu rd rs1 rs2 s

/-- DIV (43_m.md R321). -/
def execDiv (rd rs1 rs2 : Reg) (s : State) : Result := opReg (.div rd rs1 rs2) aluDiv rd rs1 rs2 s

/-- DIVU (43_m.md R322). -/
def execDivu (rd rs1 rs2 : Reg) (s : State) : Result := opReg (.divu rd rs1 rs2) aluDivu rd rs1 rs2 s

/-- REM (43_m.md R323). -/
def execRem (rd rs1 rs2 : Reg) (s : State) : Result := opReg (.rem rd rs1 rs2) aluRem rd rs1 rs2 s

/-- REMU (43_m.md R324). -/
def execRemu (rd rs1 rs2 : Reg) (s : State) : Result := opReg (.remu rd rs1 rs2) aluRemu rd rs1 rs2 s

/-- MULW (43_m.md R316). -/
def execMulw (rd rs1 rs2 : Reg) (s : State) : Result := opRegW (.mulw rd rs1 rs2) aluMul rd rs1 rs2 s

/-- DIVW (43_m.md R325). -/
def execDivw (rd rs1 rs2 : Reg) (s : State) : Result := opRegW (.divw rd rs1 rs2) aluDiv rd rs1 rs2 s

/-- DIVUW (43_m.md R326). -/
def execDivuw (rd rs1 rs2 : Reg) (s : State) : Result := opRegW (.divuw rd rs1 rs2) aluDivu rd rs1 rs2 s

/-- REMW (43_m.md R327). -/
def execRemw (rd rs1 rs2 : Reg) (s : State) : Result := opRegW (.remw rd rs1 rs2) aluRem rd rs1 rs2 s

/-- REMUW (43_m.md R328). -/
def execRemuw (rd rs1 rs2 : Reg) (s : State) : Result := opRegW (.remuw rd rs1 rs2) aluRemu rd rs1 rs2 s

end Sys2Proof.Machine
end

