-- ==== Sys2Proof/Machine/Rv64.lean ====
section
/-! DEFINITION. The meanings of the W forms of RV64I (spec 42_rv32e_rv64i_rv128i.md R277 to R286). -/

namespace Sys2Proof.Machine

/-- ADDIW (42_rv32e_rv64i_rv128i.md R278). -/
def execAddiw (rd rs1 : Reg) (imm : BitVec 12) (s : State) : Result :=
  opImmW (.addiw rd rs1 imm) aluAdd rd rs1 (s.cfg.sext imm) s

/-- SLLIW (42_rv32e_rv64i_rv128i.md R279). -/
def execSlliw (rd rs1 : Reg) (shamt : BitVec 5) (s : State) : Result :=
  opImmW (.slliw rd rs1 shamt) aluSll rd rs1 (zext shamt) s

/-- SRLIW (42_rv32e_rv64i_rv128i.md R280). -/
def execSrliw (rd rs1 : Reg) (shamt : BitVec 5) (s : State) : Result :=
  opImmW (.srliw rd rs1 shamt) aluSrl rd rs1 (zext shamt) s

/-- SRAIW (42_rv32e_rv64i_rv128i.md R281). -/
def execSraiw (rd rs1 : Reg) (shamt : BitVec 5) (s : State) : Result :=
  opImmW (.sraiw rd rs1 shamt) aluSra rd rs1 (zext shamt) s

/-- ADDW (42_rv32e_rv64i_rv128i.md R282). -/
def execAddw (rd rs1 rs2 : Reg) (s : State) : Result := opRegW (.addw rd rs1 rs2) aluAdd rd rs1 rs2 s

/-- SUBW (42_rv32e_rv64i_rv128i.md R283). -/
def execSubw (rd rs1 rs2 : Reg) (s : State) : Result := opRegW (.subw rd rs1 rs2) aluSub rd rs1 rs2 s

/-- SLLW (42_rv32e_rv64i_rv128i.md R284). -/
def execSllw (rd rs1 rs2 : Reg) (s : State) : Result := opRegW (.sllw rd rs1 rs2) aluSll rd rs1 rs2 s

/-- SRLW (42_rv32e_rv64i_rv128i.md R285). -/
def execSrlw (rd rs1 rs2 : Reg) (s : State) : Result := opRegW (.srlw rd rs1 rs2) aluSrl rd rs1 rs2 s

/-- SRAW (42_rv32e_rv64i_rv128i.md R286). -/
def execSraw (rd rs1 rs2 : Reg) (s : State) : Result := opRegW (.sraw rd rs1 rs2) aluSra rd rs1 rs2 s

end Sys2Proof.Machine
end

