-- ==== Sys2Proof/Machine/System.lean ====
section
/-! DEFINITION. The meanings of the CSR instructions (spec 45_zicsr_counters.md). -/

namespace Sys2Proof.Machine

/-- CSRRW (45_zicsr_counters.md R375). -/
def execCsrrw (rd rs1 : Reg) (csr : BitVec 12) (s : State) : Result :=
  legal (.csrrw rd rs1 csr) s (csrOp (.csrrw rd rs1 csr) rd csr (rd != 0#5) true (s.readX rs1) (fun _ src => src) s)

/-- CSRRS (45_zicsr_counters.md R376). -/
def execCsrrs (rd rs1 : Reg) (csr : BitVec 12) (s : State) : Result :=
  legal (.csrrs rd rs1 csr) s
      (csrOp (.csrrs rd rs1 csr) rd csr true (rs1 != 0#5) (s.readX rs1) (fun old src => old ||| src) s)

/-- CSRRC (45_zicsr_counters.md R377). -/
def execCsrrc (rd rs1 : Reg) (csr : BitVec 12) (s : State) : Result :=
  legal (.csrrc rd rs1 csr) s
      (csrOp (.csrrc rd rs1 csr) rd csr true (rs1 != 0#5) (s.readX rs1) (fun old src => old &&& ~~~src) s)

/-- CSRRWI (45_zicsr_counters.md R379). -/
def execCsrrwi (rd : Reg) (uimm : BitVec 5) (csr : BitVec 12) (s : State) : Result :=
  legal (.csrrwi rd uimm csr) s (csrOp (.csrrwi rd uimm csr) rd csr (rd != 0#5) true (zext uimm) (fun _ src => src) s)

/-- CSRRSI (45_zicsr_counters.md R386). -/
def execCsrrsi (rd : Reg) (uimm : BitVec 5) (csr : BitVec 12) (s : State) : Result :=
  legal (.csrrsi rd uimm csr) s
      (csrOp (.csrrsi rd uimm csr) rd csr true (uimm != 0#5) (zext uimm) (fun old src => old ||| src) s)

/-- CSRRCI (45_zicsr_counters.md R387). -/
def execCsrrci (rd : Reg) (uimm : BitVec 5) (csr : BitVec 12) (s : State) : Result :=
  legal (.csrrci rd uimm csr) s
      (csrOp (.csrrci rd uimm csr) rd csr true (uimm != 0#5) (zext uimm) (fun old src => old &&& ~~~src) s)

end Sys2Proof.Machine
end

