-- ==== Sys2Proof/Machine/Fetch.lean ====
section
/-! DEFINITION. Instruction fetch (spec 20_memory.md R63, R78, R79, R83, R84; 30_encoding.md R151; 10_state.md R50). -/

namespace Sys2Proof.Machine

/-- The older values a fetch of the address may still return (20_memory.md R78). -/
def State.olderBytes (s : State) (a : Nat) : List Byte :=
  ((s.stale.filter fun c => c.1 == a).map fun c => c.2).filter fun b => b != Memory.read s.memory a

/-- Fetch one byte: the current byte, or where older values are still visible any one of them, by a free choice
(R78; log 15); from an I/O region what the device supplies, byte by byte (log 18). -/
def State.fetchByte (s : State) (a : Nat) : Byte × State :=
  if isIo s.cfg a then ((Config.ioValue s.draws).setWidth 8, { s with draws := s.draws + 1 })
  else
    match s.olderBytes a with
    | [] => (Memory.read s.memory a, s)
    | b :: bs =>
      ((Memory.read s.memory a :: b :: bs)[Config.fetchChoice s.draws % (bs.length + 2)]?.getD b,
        { s with draws := s.draws + 1 })

/-- The two bytes of a parcel, little-endian whatever `ENDIAN` is; none where either is vacant or not fetchable (R63,
R83). -/
def State.fetchParcel (s : State) (a : Word) : Option (BitVec 16 × State) :=
  let a0 := a.toNat % 2 ^ s.cfg.xlen
  let a1 := (a.toNat + 1) % 2 ^ s.cfg.xlen
  if fetchable s.cfg a0 && fetchable s.cfg a1 then
    let (b0, s1) := s.fetchByte a0
    let (b1, s2) := s1.fetchByte a1
    some (parcelOf b0 b1, s2)
  else none

/-- What a fetch answers, with the state after it: the address of the unfetchable parcel, or the code. -/
inductive Fetched where
  | fault (parcel : Word) (s : State)
  | code (k : Code) (s : State)
deriving DecidableEq, Repr

/-- The first fetch of a run at a RESET_PC that is not in main memory "traps at once with InstructionAccessFault"
(70_reset_and_hazards.md R646; log 34). -/
def State.launchFails (s : State) : Bool := !s.launched && isIo s.cfg (s.pc.toNat % 2 ^ s.cfg.xlen)

/-- `Fetch(pc)` (R83): the first parcel, its length, and the second parcel of a 32-bit instruction. -/
def State.fetch (s : State) : Fetched :=
  let s0 := { s with launched := true }
  if s.launchFails then .fault s.pc s0
  else
    match s0.fetchParcel s.pc with
    | none => .fault s.pc s0
    | some (p0, s1) =>
      if isHalf s.cfg p0 then .code (.half p0) s1
      else
        match s1.fetchParcel (s.cfg.addX s.pc 2#64) with
        | none => .fault (s.cfg.addX s.pc 2#64) s1
        | some (p1, s2) => .code (.word (p1 ++ p0)) s2

/-- The exception of a fetch: `ilen` is 4, `tval` the unfetchable parcel (60_exceptions.md R605, R609, R612). -/
def fetchFault (parcel : Word) (s : State) : Result := raise .instructionAccessFault parcel 4 s

/-- The exception of a code that is no instruction of the configuration (R609, R610). -/
def codeIllegal (k : Code) (s : State) : Result := raise .illegalInstruction k.bits k.ilen s

/-- One byte of an instruction put where the fetch reads it, with no older value left to see. -/
def State.placeByte (s : State) (a : Nat) (b : Byte) : State :=
  { s with memory := Memory.write s.memory a b, stale := s.stale.filter fun c => c.1 != a }

/-- The bytes of an instruction put where the next fetch reads them, lowest address first. -/
def State.placeBytes (s : State) (ea : Word) (bs : List Byte) : State :=
  ((byteAddrs s.cfg ea bs.length).zip bs).foldl (fun t c => t.placeByte c.1 c.2) s

end Sys2Proof.Machine
end

