-- ==== Sys2Proof/Machine/Retry.lean ====
section
/-! DEFINITION. Constrained LR/SC loops (spec 44_a.md R345, R346; 70_reset_and_hazards.md R654): which loop a running
hart is in, so that an SC_MAY_FAIL oracle can keep the guarantee that such a loop succeeds in the end. -/

namespace Sys2Proof

/-- The instructions that a constrained loop may hold between LR and SC and on its way back: those of the base ISA but
loads, stores, JALR, FENCE and SYSTEM, and the compressed forms that expand to one of them; C.SLLI64, C.SRLI64 and
C.SRAI64 expand to none (44_a.md R345; 49_c.md R534, R590; 41_rv32i_control_memory_system.md R262; log 16). -/
def Instr.inConstrainedLoop : Instr → Bool
  | .lui .. | .auipc .. | .addi .. | .slti .. | .sltiu .. | .xori .. | .ori .. | .andi .. | .slli .. | .srli ..
  | .srai .. | .add .. | .sub .. | .sll .. | .slt .. | .sltu .. | .xor .. | .srl .. | .sra .. | .or .. | .and ..
  | .jal .. | .beq .. | .bne .. | .blt .. | .bge .. | .bltu .. | .bgeu .. | .addiw .. | .slliw .. | .srliw ..
  | .sraiw .. | .addw .. | .subw .. | .sllw .. | .srlw .. | .sraw .. | .cAddi4spn .. | .cNop .. | .cAddi ..
  | .cJal .. | .cAddiw .. | .cLi .. | .cAddi16sp .. | .cLui .. | .cSrli .. | .cSrai .. | .cAndi .. | .cSub ..
  | .cXor .. | .cOr .. | .cAnd .. | .cSubw .. | .cAddw .. | .cJ .. | .cBeqz .. | .cBnez .. | .cSlli .. | .cMv ..
  | .cAdd .. => true
  | .jalr .. | .lb .. | .lh .. | .lw .. | .lbu .. | .lhu .. | .sb .. | .sh .. | .sw .. | .fence .. | .fenceTso
  | .pause | .fenceI .. | .ecall | .ebreak | .lwu .. | .ld .. | .sd .. | .mul .. | .mulh .. | .mulhsu .. | .mulhu ..
  | .div .. | .divu .. | .rem .. | .remu .. | .mulw .. | .divw .. | .divuw .. | .remw .. | .remuw .. | .lrW ..
  | .scW .. | .amoswapW .. | .amoaddW .. | .amoxorW .. | .amoandW .. | .amoorW .. | .amominW .. | .amomaxW ..
  | .amominuW .. | .amomaxuW .. | .lrD .. | .scD .. | .amoswapD .. | .amoaddD .. | .amoxorD .. | .amoandD ..
  | .amoorD .. | .amominD .. | .amomaxD .. | .amominuD .. | .amomaxuD .. | .csrrw .. | .csrrs .. | .csrrc ..
  | .csrrwi .. | .csrrsi .. | .csrrci .. | .flw .. | .fsw .. | .fmaddS .. | .fmsubS .. | .fnmsubS .. | .fnmaddS ..
  | .faddS .. | .fsubS .. | .fmulS .. | .fdivS .. | .fsqrtS .. | .fsgnjS .. | .fsgnjnS .. | .fsgnjxS .. | .fminS ..
  | .fmaxS .. | .fcvtWS .. | .fcvtWUS .. | .fmvXW .. | .feqS .. | .fltS .. | .fleS .. | .fclassS .. | .fcvtSW ..
  | .fcvtSWU .. | .fmvWX .. | .fcvtLS .. | .fcvtLUS .. | .fcvtSL .. | .fcvtSLU .. | .fld .. | .fsd .. | .fmaddD ..
  | .fmsubD .. | .fnmsubD .. | .fnmaddD .. | .faddD .. | .fsubD .. | .fmulD .. | .fdivD .. | .fsqrtD .. | .fsgnjD ..
  | .fsgnjnD .. | .fsgnjxD .. | .fminD .. | .fmaxD .. | .fcvtSD .. | .fcvtDS .. | .feqD .. | .fltD .. | .fleD ..
  | .fclassD .. | .fcvtWD .. | .fcvtWUD .. | .fcvtDW .. | .fcvtDWU .. | .fcvtLD .. | .fcvtLUD .. | .fmvXD ..
  | .fcvtDL .. | .fcvtDLU .. | .fmvDX .. | .flq .. | .fsq .. | .fmaddQ .. | .fmsubQ .. | .fnmsubQ .. | .fnmaddQ ..
  | .faddQ .. | .fsubQ .. | .fmulQ .. | .fdivQ .. | .fsqrtQ .. | .fsgnjQ .. | .fsgnjnQ .. | .fsgnjxQ .. | .fminQ ..
  | .fmaxQ .. | .fcvtSQ .. | .fcvtQS .. | .fcvtDQ .. | .fcvtQD .. | .feqQ .. | .fltQ .. | .fleQ .. | .fclassQ ..
  | .fcvtWQ .. | .fcvtWUQ .. | .fcvtQW .. | .fcvtQWU .. | .fcvtLQ .. | .fcvtLUQ .. | .fcvtQL .. | .fcvtQLU ..
  | .illegalAllZero | .cFld .. | .cLw .. | .cFlw .. | .cLd .. | .cFsd .. | .cSw .. | .cFsw .. | .cSd .. | .cFldsp ..
  | .cLwsp .. | .cFlwsp .. | .cLdsp .. | .cJr .. | .cEbreak | .cJalr .. | .cFsdsp .. | .cSwsp .. | .cFswsp ..
  | .cSdsp .. | .cLq .. | .cSq .. | .cLqsp .. | .cSqsp .. | .cSlli64 .. | .cSrli64 .. | .cSrai64 .. => false

namespace Machine

/-- Every byte of the access lies in memory with the LR/SC eventuality property (44_a.md R345). -/
def eventual (c : Config) (ea : Word) (n : Nat) : Bool :=
  (byteAddrs c ea n).all fun a => (regionAt c a).any fun r => r.eventual

/-- After an LR: its loop is repeated, if it is still one of at most 16 instructions, or entered, with the patience the
environment has for it. -/
def State.loopAfterLr (s : State) (ea : Word) (n : Nat) : Option RetryLoop :=
  let entered : RetryLoop :=
    { lrPc := s.pc, ea := ea, n := n, first := s.pc, last := s.pc, retrying := false, failures := 0,
      patience := Config.scPatience s.draws }
  if eventual s.cfg ea n then
    match s.loop with
    | none => some entered
    | some l =>
      let r := l.reach s.cfg s.pc
      if l.retrying && l.lrPc == s.pc && s.sequential r.last 16 r.first then
        some { r with ea := ea, n := n, retrying := false }
      else some entered
  else none

/-- After an SC: the loop is left by a success, and goes on after a failed SC to the address and size of its LR. -/
def State.loopAfterSc (s : State) (ea : Word) (n : Nat) : Option RetryLoop :=
  match s.loop with
  | none => none
  | some l =>
    if l.retrying || l.ea != ea || l.n != n || s.scSucceeds ea n then none
    else some { l.reach s.cfg s.pc with retrying := true, failures := l.failures + 1 }

/-- After any other instruction, from which `pc` has gone to `target`: the loop goes on if the instruction may stand in
it and has not jumped backwards but, after a failed SC, to repeat the LR/SC sequence. -/
def State.loopAfterOther (s : State) (i : Instr) (target : Word) : Option RetryLoop :=
  match s.loop with
  | none => none
  | some l =>
    if i.inConstrainedLoop && (s.cfg.ahead s.pc target || (l.retrying && !s.cfg.ahead l.lrPc target)) then
      some (l.reach s.cfg s.pc)
    else none

/-- The loop the hart is in after the instruction `i`, executed in `s`, has taken `pc` to `target`. -/
def State.loopAfter (s : State) (i : Instr) (target : Word) : Option RetryLoop :=
  match i with
  | .lrW _ rs1 _ _ => s.loopAfterLr (s.readX rs1) 4
  | .lrD _ rs1 _ _ => s.loopAfterLr (s.readX rs1) 8
  | .scW _ rs1 _ _ _ => s.loopAfterSc (s.readX rs1) 4
  | .scD _ rs1 _ _ _ => s.loopAfterSc (s.readX rs1) 8
  | _ => s.loopAfterOther i target

/-- What a step adds to an instruction that completed: where SC_MAY_FAIL is an oracle, the loop is followed, and the
draw of its patience is counted (log 16). A trap ends the loop when the hart resumes (`resumeAt`). -/
def followLoop (i : Instr) (s : State) (r : Result) : Result :=
  match r with
  | .next t =>
    if s.cfg.scMayFail = .oracle ∧ t.status = .running then
      .next { t with loop := s.loopAfter i t.pc, draws := t.draws + 1 }
    else .next t
  | .fault e => .fault e
  | .refused e => .refused e

end Machine
end Sys2Proof
end

