-- ==== Sys2Proof/Machine/Step.lean ====
section
/-! DEFINITION. One step of the machine (spec 00_scope.md R12; 20_memory.md R83; 60_exceptions.md R605, R610, R620). -/

namespace Sys2Proof.Machine

/-- A Running hart fetches, decodes and executes the instruction at `pc`; a Trapped one does what its environment's
`TRAP_POLICY` says (60_exceptions.md R605). A misaligned RESET_PC is refused (70_reset_and_hazards.md R646), and a `pc`
off IALIGN later in a run is no state of the spec (10_state.md R26; log 12). -/
def step (s : State) : Result :=
  match s.status with
  | .trapped r => stepTrapped r s
  | .running =>
    if s.cfg.aligned s.pc then
      match s.fetch with
      | .fault parcel s' => fetchFault parcel s'
      | .code k s' =>
        match decode s.cfg k with
        | .ok i => followLoop i s' (exec i s')
        | .error _ => codeIllegal k s'
    else if s.launched then .fault .misalignedPc
    else .refused .misalignedResetPc

/-- The instruction whose bits are `w` stored where `step` fetches next, in the byte order of a fetch (20_memory.md R63):
a program is loaded from outside the machine, and this stands for that load (log 8). -/
def State.withFetchWord (s : State) (nbits w : Nat) : State := s.placeBytes s.pc (bytesOfWord (w % 2 ^ nbits))

end Sys2Proof.Machine
end

