-- ==== Sys2Proof/Safety.lean ====
section
/-! DEFINITION. The terms claims use: the invariant, how a run ends, the next states written out field by field, the
integer reading of registers, and the footprint of an instruction (spec 60_exceptions.md R605, R606, R630;
70_reset_and_hazards.md R646; 00_scope.md R9). -/

namespace Sys2Proof

/-- A cell that holds an XLEN-bit value: the bits above XLEN are zero (log 26). -/
def Config.fitsX (c : Config) (v : Word) : Bool := c.truncate v == v

/-- A cell that holds an FLEN-bit pattern: the bits above FLEN are zero (log 26). -/
def Config.fitsF (c : Config) (v : FWord) : Bool := (v.setWidth c.flen).setWidth 128 == v

namespace Machine

/-! ### Runs and the invariant -/

/-- The run has ended: Trapped, and the policy of the cause is `halt` (60_exceptions.md R630). -/
def State.ended (s : State) : Bool :=
  match s.status with
  | .running => false
  | .trapped r => (trapPolicy s.cfg r.cause).isNone

/-- The normal end: a halting EnvironmentCall (R630). -/
def State.endedNormally (s : State) : Bool :=
  match s.status with
  | .running => false
  | .trapped r => r.cause == .environmentCall && s.ended

/-- An end for every other cause, Breakpoint included (R630). -/
def State.endedFaulted (s : State) : Bool := s.ended && !s.endedNormally

/-- The launch premises of this model (70_reset_and_hazards.md R646): a legal configuration and an aligned `pc` in
fetchable main memory. -/
def State.launchable (s : State) : Bool :=
  s.cfg.legal && s.cfg.aligned s.pc && fetchable s.cfg s.pc.toNat && !isIo s.cfg s.pc.toNat

/-- The invariant that every step keeps: memory is in canonical form inside the 2^XLEN-byte address space, the register
cells hold values of the configuration's widths, and `pc` is XLEN bits wide and a multiple of IALIGN/8
(20_memory.md R60; 10_state.md R20, R24, R26, R30). -/
def State.inv (s : State) : Bool :=
  Memory.wf s.memory && s.memory.all (fun c => decide (c.1 < 2 ^ s.cfg.xlen)) && s.x.toList.all s.cfg.fitsX &&
    s.f.toList.all s.cfg.fitsF && s.cfg.fitsX s.pc && s.cfg.aligned s.pc

/-! ### Registers as integers (00_scope.md R9) -/

/-- `unsigned(x[r])`. -/
def State.natX (s : State) (r : Reg) : Nat := (s.readX r).toNat % 2 ^ s.cfg.xlen

/-- `signed(x[r])`. -/
def State.intX (s : State) (r : Reg) : Int := Int.bmod (s.readX r).toNat (2 ^ s.cfg.xlen)

/-- `unsigned(x[r][31:0])`. -/
def State.natW (s : State) (r : Reg) : Nat := (s.readX r).toNat % 2 ^ 32

/-- `signed(x[r][31:0])`. -/
def State.intW (s : State) (r : Reg) : Int := Int.bmod (s.readX r).toNat (2 ^ 32)

/-! ### Next states, field by field: what a record does not name is unchanged -/

/-- Only `pc` has moved, and the instruction has retired. -/
def State.afterPc (s : State) (target : Word) : State := { s with pc := target, instret := s.instret + 1 }

/-- `x[rd] <- v` (nothing if `rd` is x0), then `pc <- target`; the instruction has retired. -/
def State.afterLink (s : State) (rd : Reg) (v target : Word) : State :=
  { s with
    x := if rd = 0#5 then s.x else s.x.set rd.toNat (s.cfg.truncate v) rd.isLt
    pc := target
    instret := s.instret + 1 }

/-- `x[rd] <- v` (nothing if `rd` is x0), then `pc <- pc + len`. -/
def State.afterX (s : State) (rd : Reg) (v : Word) (len : Nat) : State := s.afterLink rd v (s.pcAfter len)

/-- `f[rd] <- v`, all FLEN bits, then `pc <- pc + len`. -/
def State.afterF (s : State) (rd : Reg) (v : FWord) (len : Nat) : State :=
  { s with
    f := s.f.set rd.toNat v rd.isLt
    pc := s.pcAfter len
    instret := s.instret + 1 }

/-- The accrued flags ORed into `fcsr`. -/
def State.withFlags (s : State) (fl : FFlags) : State := { s with fcsr := s.fcsr ||| fl.setWidth 8 }

/-- Trapped at `pc` with this cause, value and length (60_exceptions.md R605 to R607). -/
def State.trap (s : State) (cause : Cause) (tval : Word) (len : Nat) : State :=
  { s with status := .trapped { cause := cause, epc := s.pc, tval := tval, ilen := len } }

/-! ### Floating-point values as numbers (46_f.md R402, R405, R429) -/

/-- The number a finite value stands for; a zero, and what is no number, counts 0. -/
def FValue.toRat : FValue → ℚ
  | .normal neg m e | .subnormal neg m e => (if neg then -1 else 1) * m * 2 ^ e
  | .nan _ | .infinite _ | .zero _ => 0

/-- Zero, subnormal or normal. -/
def FValue.isFinite (v : FValue) : Bool := !v.isNaN && !v.isInfinite

/-- Sign and magnitude of a pattern as one integer: it orders the patterns that are no NaN as their values, with -0 and
+0 the same. -/
def signedMagnitude {w : Nat} (b : BitVec w) : Int :=
  if b.msb then -((b.toNat - 2 ^ (w - 1) : Nat) : Int) else b.toNat

/-- `m * 2^e` rounds as the positive number `x` does in every mode to every format of `p` significant bits: it is `x`;
or `m` is odd, has at least three bits more, and `x` lies strictly between its even neighbours, so that no value of the
format and no middle of two lies between `x` and `m * 2^e`. The order with `x` is given, for roots that are no rational
number. -/
def standsFor (p m : Nat) (e : Int) (equal : ℚ → Prop) (below above : ℚ → Prop) : Prop :=
  0 < m ∧ (equal (m * 2 ^ e) ∨
    (m % 2 = 1 ∧ 2 ^ (p + 2) ≤ m ∧ below ((m - 1) * 2 ^ e) ∧ above ((m + 1) * 2 ^ e)))

/-- The result `r` is the exact number `x`, not zero, rounded once (R405). -/
def Fmt.RoundsTo (F : Fmt) (rm : Rounding) (x : ℚ) (r : BitVec F.width × FFlags) : Prop :=
  ∃ (m : Nat) (e : Int), standsFor (F.fracBits + 1) m e (fun y => y = |x|) (fun y => y < |x|) (fun y => |x| < y) ∧
    r = F.round rm (decide (x < 0)) m e

/-- The result `r` is the square root of the positive number `x` rounded once. -/
def Fmt.RoundsToRoot (F : Fmt) (rm : Rounding) (x : ℚ) (r : BitVec F.width × FFlags) : Prop :=
  ∃ (m : Nat) (e : Int), standsFor (F.fracBits + 1) m e (fun y => y * y = x) (fun y => y * y < x) (fun y => x < y * y) ∧
    r = F.round rm false m e

/-- The integer `i` is `x` rounded in the mode (R405 step 1 with grid 1; R429). -/
def Rounding.IsInteger (rm : Rounding) (x : ℚ) (i : Int) : Prop :=
  let down := (i : ℚ) ≤ x ∧ x < i + 1
  let up := x ≤ i ∧ (i : ℚ) - 1 < x
  let near := |x - i| ≤ 1 / 2
  let tie := |x - i| = 1 / 2
  match rm with
  | .rne => near ∧ (tie → i % 2 = 0)
  | .rtz => if x < 0 then up else down
  | .rdn => down
  | .rup => up
  | .rmm => near ∧ (tie → |x| < |i|)

/-! ### Footprints -/

/-- One explicit access to memory: its kind, whether it is an atomic's, its effective address and its width. -/
structure Access where
  kind : AccessKind
  atomic : Bool
  ea : Word
  n : Nat
deriving DecidableEq, Repr

/-- What the checks of the access raise, if anything. -/
def Access.fault (a : Access) (c : Config) : Option Cause :=
  if a.atomic then atomicFault c a.kind a.ea a.n else dataFault c a.kind a.ea a.n

/-- The access may store. -/
def Access.stores (a : Access) : Bool :=
  match a.kind with
  | .read => false
  | .write => true
  | .readWrite => true

/-- What an instruction that completes may change, beside `pc` and `instret`. -/
structure Footprint where
  /-- the integer register it writes -/
  x : Option Reg := none
  /-- the floating-point register it writes -/
  f : Option Reg := none
  /-- it may write `fcsr` -/
  fcsr : Bool := false
  /-- its access to memory, at the address that its meaning computes -/
  access : Option Access := none
  /-- it may read `cycle` or `time`, which have advanced -/
  counters : Bool := false
  /-- it sets or clears the reservation -/
  reservation : Bool := false
  /-- it discards the older fetch candidates -/
  candidates : Bool := false
deriving DecidableEq, Repr

/-- The bytes an instruction may store to. -/
def Footprint.storedBytes (p : Footprint) (c : Config) : List Nat :=
  match p.access with
  | none => []
  | some a => if a.stores then byteAddrs c a.ea a.n else []

end Machine

/-- The footprint of every instruction in a state (the state gives the addresses). -/
def Instr.footprint (s : Machine.State) : Instr → Machine.Footprint
  | .lui rd _ | .auipc rd _ | .addi rd _ _ | .slti rd _ _ | .sltiu rd _ _ | .xori rd _ _ | .ori rd _ _
  | .andi rd _ _ | .slli rd _ _ | .srli rd _ _ | .srai rd _ _ | .add rd _ _ | .sub rd _ _ | .sll rd _ _
  | .slt rd _ _ | .sltu rd _ _ | .xor rd _ _ | .srl rd _ _ | .sra rd _ _ | .or rd _ _ | .and rd _ _ | .jal rd _
  | .jalr rd _ _ | .addiw rd _ _ | .slliw rd _ _ | .srliw rd _ _ | .sraiw rd _ _ | .addw rd _ _ | .subw rd _ _
  | .sllw rd _ _ | .srlw rd _ _ | .sraw rd _ _ | .mul rd _ _ | .mulh rd _ _ | .mulhsu rd _ _ | .mulhu rd _ _
  | .div rd _ _ | .divu rd _ _ | .rem rd _ _ | .remu rd _ _ | .mulw rd _ _ | .divw rd _ _ | .divuw rd _ _
  | .remw rd _ _ | .remuw rd _ _ | .fmvXW rd _ | .fclassS rd _ | .fclassD rd _ | .fmvXD rd _ | .fclassQ rd _
  | .cAddi rd _ | .cAddiw rd _ | .cLi rd _ | .cLui rd _ | .cSlli rd _ | .cMv rd _ | .cAdd rd _ => { x := some rd }
  | .beq .. | .bne .. | .blt .. | .bge .. | .bltu .. | .bgeu .. | .fence .. | .fenceTso | .pause | .ecall | .ebreak
  | .illegalAllZero | .cNop .. | .cJ .. | .cBeqz .. | .cBnez .. | .cJr .. | .cEbreak | .cSlli64 .. | .cSrli64 ..
  | .cSrai64 .. | .cLq .. | .cSq .. | .cLqsp .. | .cSqsp .. => {}
  | .lb rd rs1 imm | .lbu rd rs1 imm => { x := some rd, access := some ⟨.read, false, s.ea rs1 imm, 1⟩ }
  | .lh rd rs1 imm | .lhu rd rs1 imm => { x := some rd, access := some ⟨.read, false, s.ea rs1 imm, 2⟩ }
  | .lw rd rs1 imm | .lwu rd rs1 imm => { x := some rd, access := some ⟨.read, false, s.ea rs1 imm, 4⟩ }
  | .sb rs1 _ imm => { access := some ⟨.write, false, s.ea rs1 imm, 1⟩ }
  | .sh rs1 _ imm => { access := some ⟨.write, false, s.ea rs1 imm, 2⟩ }
  | .sw rs1 _ imm | .fsw rs1 _ imm => { access := some ⟨.write, false, s.ea rs1 imm, 4⟩ }
  | .fenceI .. => { candidates := true }
  | .ld rd rs1 imm => { x := some rd, access := some ⟨.read, false, s.ea rs1 imm, 8⟩ }
  | .sd rs1 _ imm | .fsd rs1 _ imm => { access := some ⟨.write, false, s.ea rs1 imm, 8⟩ }
  | .lrW rd rs1 _ _ => { x := some rd, access := some ⟨.read, true, s.readX rs1, 4⟩, reservation := true }
  | .scW rd rs1 _ _ _ => { x := some rd, access := some ⟨.write, true, s.readX rs1, 4⟩, reservation := true }
  | .amoswapW rd rs1 _ _ _ | .amoaddW rd rs1 _ _ _ | .amoxorW rd rs1 _ _ _ | .amoandW rd rs1 _ _ _
  | .amoorW rd rs1 _ _ _ | .amominW rd rs1 _ _ _ | .amomaxW rd rs1 _ _ _ | .amominuW rd rs1 _ _ _
  | .amomaxuW rd rs1 _ _ _ => { x := some rd, access := some ⟨.readWrite, true, s.readX rs1, 4⟩ }
  | .lrD rd rs1 _ _ => { x := some rd, access := some ⟨.read, true, s.readX rs1, 8⟩, reservation := true }
  | .scD rd rs1 _ _ _ => { x := some rd, access := some ⟨.write, true, s.readX rs1, 8⟩, reservation := true }
  | .amoswapD rd rs1 _ _ _ | .amoaddD rd rs1 _ _ _ | .amoxorD rd rs1 _ _ _ | .amoandD rd rs1 _ _ _
  | .amoorD rd rs1 _ _ _ | .amominD rd rs1 _ _ _ | .amomaxD rd rs1 _ _ _ | .amominuD rd rs1 _ _ _
  | .amomaxuD rd rs1 _ _ _ => { x := some rd, access := some ⟨.readWrite, true, s.readX rs1, 8⟩ }
  | .csrrw rd _ _ | .csrrs rd _ _ | .csrrc rd _ _ | .csrrwi rd _ _ | .csrrsi rd _ _ | .csrrci rd _ _ =>
    { x := some rd, fcsr := true, counters := true }
  | .flw rd rs1 imm => { f := some rd, access := some ⟨.read, false, s.ea rs1 imm, 4⟩ }
  | .fmaddS rd _ _ _ _ | .fmsubS rd _ _ _ _ | .fnmsubS rd _ _ _ _ | .fnmaddS rd _ _ _ _ | .faddS rd _ _ _
  | .fsubS rd _ _ _ | .fmulS rd _ _ _ | .fdivS rd _ _ _ | .fsqrtS rd _ _ | .fminS rd _ _ | .fmaxS rd _ _
  | .fcvtSW rd _ _ | .fcvtSWU rd _ _ | .fcvtSL rd _ _ | .fcvtSLU rd _ _ | .fmaddD rd _ _ _ _ | .fmsubD rd _ _ _ _
  | .fnmsubD rd _ _ _ _ | .fnmaddD rd _ _ _ _ | .faddD rd _ _ _ | .fsubD rd _ _ _ | .fmulD rd _ _ _
  | .fdivD rd _ _ _ | .fsqrtD rd _ _ | .fminD rd _ _ | .fmaxD rd _ _ | .fcvtSD rd _ _ | .fcvtDS rd _ _
  | .fcvtDW rd _ _ | .fcvtDWU rd _ _ | .fcvtDL rd _ _ | .fcvtDLU rd _ _ | .fmaddQ rd _ _ _ _ | .fmsubQ rd _ _ _ _
  | .fnmsubQ rd _ _ _ _ | .fnmaddQ rd _ _ _ _ | .faddQ rd _ _ _ | .fsubQ rd _ _ _ | .fmulQ rd _ _ _
  | .fdivQ rd _ _ _ | .fsqrtQ rd _ _ | .fminQ rd _ _ | .fmaxQ rd _ _ | .fcvtSQ rd _ _ | .fcvtQS rd _ _
  | .fcvtDQ rd _ _ | .fcvtQD rd _ _ | .fcvtQW rd _ _ | .fcvtQWU rd _ _ | .fcvtQL rd _ _ | .fcvtQLU rd _ _ =>
    { f := some rd, fcsr := true }
  | .fsgnjS rd _ _ | .fsgnjnS rd _ _ | .fsgnjxS rd _ _ | .fmvWX rd _ | .fsgnjD rd _ _ | .fsgnjnD rd _ _
  | .fsgnjxD rd _ _ | .fmvDX rd _ | .fsgnjQ rd _ _ | .fsgnjnQ rd _ _ | .fsgnjxQ rd _ _ => { f := some rd }
  | .fcvtWS rd _ _ | .fcvtWUS rd _ _ | .feqS rd _ _ | .fltS rd _ _ | .fleS rd _ _ | .fcvtLS rd _ _ | .fcvtLUS rd _ _
  | .feqD rd _ _ | .fltD rd _ _ | .fleD rd _ _ | .fcvtWD rd _ _ | .fcvtWUD rd _ _ | .fcvtLD rd _ _ | .fcvtLUD rd _ _
  | .feqQ rd _ _ | .fltQ rd _ _ | .fleQ rd _ _ | .fcvtWQ rd _ _ | .fcvtWUQ rd _ _ | .fcvtLQ rd _ _ | .fcvtLUQ rd _ _ =>
    { x := some rd, fcsr := true }
  | .fld rd rs1 imm => { f := some rd, access := some ⟨.read, false, s.ea rs1 imm, 8⟩ }
  | .flq rd rs1 imm => { f := some rd, access := some ⟨.read, false, s.ea rs1 imm, 16⟩ }
  | .fsq rs1 _ imm => { access := some ⟨.write, false, s.ea rs1 imm, 16⟩ }
  | .cAddi4spn rd _ | .cSrli rd _ | .cSrai rd _ | .cAndi rd _ | .cSub rd _ | .cXor rd _ | .cOr rd _ | .cAnd rd _
  | .cSubw rd _ | .cAddw rd _ => { x := some rd.full }
  | .cFld rd rs1 imm => { f := some rd.full, access := some ⟨.read, false, s.eaScaled rs1.full (scaled 3 imm), 8⟩ }
  | .cLw rd rs1 imm => { x := some rd.full, access := some ⟨.read, false, s.eaScaled rs1.full (scaled 2 imm), 4⟩ }
  | .cFlw rd rs1 imm => { f := some rd.full, access := some ⟨.read, false, s.eaScaled rs1.full (scaled 2 imm), 4⟩ }
  | .cLd rd rs1 imm => { x := some rd.full, access := some ⟨.read, false, s.eaScaled rs1.full (scaled 3 imm), 8⟩ }
  | .cFsd rs1 _ imm | .cSd rs1 _ imm => { access := some ⟨.write, false, s.eaScaled rs1.full (scaled 3 imm), 8⟩ }
  | .cSw rs1 _ imm | .cFsw rs1 _ imm => { access := some ⟨.write, false, s.eaScaled rs1.full (scaled 2 imm), 4⟩ }
  | .cJal .. | .cJalr .. => { x := some 1#5 }
  | .cAddi16sp .. => { x := some 2#5 }
  | .cFldsp rd imm => { f := some rd, access := some ⟨.read, false, s.eaScaled 2#5 (scaled 3 imm), 8⟩ }
  | .cLwsp rd imm => { x := some rd, access := some ⟨.read, false, s.eaScaled 2#5 (scaled 2 imm), 4⟩ }
  | .cFlwsp rd imm => { f := some rd, access := some ⟨.read, false, s.eaScaled 2#5 (scaled 2 imm), 4⟩ }
  | .cLdsp rd imm => { x := some rd, access := some ⟨.read, false, s.eaScaled 2#5 (scaled 3 imm), 8⟩ }
  | .cFsdsp _ imm | .cSdsp _ imm => { access := some ⟨.write, false, s.eaScaled 2#5 (scaled 3 imm), 8⟩ }
  | .cSwsp _ imm | .cFswsp _ imm => { access := some ⟨.write, false, s.eaScaled 2#5 (scaled 2 imm), 4⟩ }

end Sys2Proof
end

