-- ==== Sys2Proof/Certificates/Slice0/Obligations.lean ====
section
/-! DEFINITION. The statements for the provers. Each docstring names the rules it rests on; `Safety.lean` defines the
next states (`afterX`, `afterPc`, `afterLink`, `afterF`, `trap`), which are written out field by field and so carry the
frame of the instruction with them: every field they do not name is unchanged. -/

section Statements

open Sys2Proof Sys2Proof.Machine

/-! ### Reset, fetch, decode and step -/

/-- Reset: Running at RESET_PC, no reservation, no older fetch candidates, x0 zero, a launchable configuration
(70_reset_and_hazards.md R641, R643, R646; the values of `pc` and of the configuration are the model's, logs 1, 2). -/
def Obligations.ResetIsLaunchable : Prop :=
  State.reset.status = .running ∧ State.reset.reservation = none ∧ State.reset.stale = [] ∧
    State.reset.readX 0#5 = 0#64 ∧ State.reset.pc = Config.resetPc ∧ State.reset.launchable = true

/-- The invariant holds at reset. -/
def Obligations.ResetSatisfiesInvariant : Prop := State.reset.inv = true

/-- From every state that satisfies the invariant, a step that answers a next state keeps it: canonical memory inside
the address space, register cells of the configured widths, an aligned `pc` of XLEN bits (20_memory.md R60;
10_state.md R20, R24, R26, R30). -/
def Obligations.StepKeepsInvariant : Prop :=
  ∀ s t : State, s.inv = true → step s = .next t → t.inv = true

/-- A running hart at an aligned `pc` executes the instruction its fetched code decodes to, from the state after the
fetch; a step adds to it only, under an SC_MAY_FAIL oracle, the LR/SC loop the hart is in and a draw (the model's own
fields, logs 16, 28). A code that is no instruction of the configuration raises IllegalInstruction, a fetch fault raises
InstructionAccessFault, and a misaligned RESET_PC is refused (20_memory.md R83; 60_exceptions.md R609, R610, R612;
70_reset_and_hazards.md R646; 44_a.md R346; the stop at a misaligned `pc` in a run is log 12's). -/
def Obligations.StepRunsDecodedInstruction : Prop :=
  (∀ (s s' : State) (k : Code) (i : Instr), s.status = .running → s.cfg.aligned s.pc = true → s.fetch = .code k s' →
    decode s.cfg k = .ok i → step s = followLoop i s' (exec i s') ∧
      (s.cfg.scMayFail = .never → step s = exec i s') ∧
      (s.cfg.scMayFail = .oracle → ∀ t : State, exec i s' = .next t →
        (t.status = .running → step s = .next { t with loop := s'.loopAfter i t.pc, draws := t.draws + 1 }) ∧
        (t.status ≠ .running → step s = .next t))) ∧
  (∀ (s s' : State) (k : Code) (e : Reject), s.status = .running → s.cfg.aligned s.pc = true → s.fetch = .code k s' →
    decode s.cfg k = .error e → step s = .next (s'.trap .illegalInstruction k.bits k.ilen)) ∧
  (∀ (s s' : State) (p : Word), s.status = .running → s.cfg.aligned s.pc = true → s.fetch = .fault p s' →
    step s = .next (s'.trap .instructionAccessFault p 4)) ∧
  (∀ s : State, s.status = .running → s.cfg.aligned s.pc = false →
    step s = if s.launched then .fault .misalignedPc else .refused .misalignedResetPc)

/-- The bytes at `pc` make up what a fetch returns, the lowest address lowest in the instruction whatever the data byte
order is, and the first parcel decides the length: in main memory, with no older candidate for them, the bytes of
memory; in an I/O region, where a launched hart may fetch as MEMMAP permits, for each byte the value its device supplies
at a draw of its own (logs 18, 28). Nothing else changes but the model's own note that the hart has fetched (log 34).
Where the first or the second parcel is not fetchable, or a run starts in an I/O region, the fetch faults with that
parcel's address. A byte is fetchable where the region that holds it permits fetches, and accesses of 2 bytes, the width
of a parcel (20_memory.md R60, R61, R63, R70, R83, R84; 30_encoding.md R151; 60_exceptions.md R612, R627;
70_reset_and_hazards.md R646; the region that counts and the width are as log 20 reads R70). -/
def Obligations.FetchReadsMemoryAtPc : Prop :=
  (∀ s : State,
    let a := fun i : Nat => (s.pc.toNat + i) % 2 ^ s.cfg.xlen
    let drawn := fun k : Nat => (List.range k).countP fun i => isIo s.cfg (a i)
    let plain := fun i : Nat =>
      fetchable s.cfg (a i) = true ∧ (isIo s.cfg (a i) = false → ∀ c ∈ s.stale, c.1 ≠ a i)
    let b := fun i : Nat =>
      if isIo s.cfg (a i) then (Config.ioValue (s.draws + drawn i)).setWidth 8 else Memory.read s.memory (a i)
    let s' := fun k : Nat => { s with launched := true, draws := s.draws + drawn k }
    let may := s.launched = true ∨ isIo s.cfg (a 0) = false
    (may → plain 0 → plain 1 → isHalf s.cfg (b 1 ++ b 0) = true → s.fetch = .code (.half (b 1 ++ b 0)) (s' 2)) ∧
    (may → plain 0 → plain 1 → plain 2 → plain 3 → isHalf s.cfg (b 1 ++ b 0) = false →
      s.fetch = .code (.word (b 3 ++ b 2 ++ b 1 ++ b 0)) (s' 4)) ∧
    (fetchable s.cfg (a 0) = false ∨ fetchable s.cfg (a 1) = false ∨ ¬ may → s.fetch = .fault s.pc (s' 0)) ∧
    (may → plain 0 → plain 1 → isHalf s.cfg (b 1 ++ b 0) = false →
      (fetchable s.cfg (a 2) = false ∨ fetchable s.cfg (a 3) = false) →
      s.fetch = .fault (s.cfg.truncate (BitVec.ofNat 64 (s.pc.toNat + 2))) (s' 2))) ∧
  (∀ (c : Config) (x : Nat), fetchable c x = true ↔
    ∃ r : Region, c.memmap.find? (fun r => decide (r.base ≤ x) && decide (x < r.base + r.size)) = some r ∧
      r.fetch = true ∧ 2 ∈ r.widths)

/-- A byte fetched from main memory is the current one or an older one recorded for its address, by a choice that is
drawn anew at each fetch, also at one whose second parcel faults; a store keeps the candidates and records each byte it
changes (20_memory.md R78; 70_reset_and_hazards.md R652; log 15). -/
def Obligations.FetchedByteIsCandidate : Prop :=
  (∀ (s : State) (a : Nat), isIo s.cfg a = false →
    (s.fetchByte a).1 = Memory.read s.memory a ∨ (a, (s.fetchByte a).1) ∈ s.stale) ∧
  (∀ (s : State) (a : Nat), isIo s.cfg a = false → s.olderBytes a ≠ [] →
    (s.fetchByte a).2 = { s with draws := s.draws + 1 }) ∧
  (∀ (s s1 : State) (h : BitVec 16), s.launchFails = false →
    { s with launched := true }.fetchParcel s.pc = some (h, s1) → isHalf s.cfg h = false →
    s1.fetchParcel (s.cfg.addX s.pc 2#64) = none → s.fetch = .fault (s.cfg.addX s.pc 2#64) s1) ∧
  (∀ (s : State) (ea : Word) (n : Nat) (v : BitVec (8 * n)) (whole : Bool) (a : Nat),
    (∀ c ∈ s.stale, c ∈ (s.memWrite ea n v whole).stale) ∧
    (Memory.read (s.memWrite ea n v whole).memory a ≠ Memory.read s.memory a →
      (a, Memory.read s.memory a) ∈ (s.memWrite ea n v whole).stale))

/-- Words written out from the spec's encodings decode to their instructions (95_test_vectors.md). -/
def Obligations.SpecWordsDecode : Prop :=
  decode Config.reset (.word 0x007302B3#32) = .ok (.add 5#5 6#5 7#5) ∧
  decode Config.reset (.word 0xFE629CE3#32) = .ok (.bne 5#5 6#5 0xFFC#12) ∧
  decode Config.reset (.word 0x0C55232F#32) = .ok (.amoswapW 6#5 10#5 5#5 1#1 0#1) ∧
  decode Config.reset (.word 0xC00022F3#32) = .ok (.csrrs 5#5 0#5 0xC00#12) ∧
  decode Config.reset (.word 0x003100D3#32) = .ok (.faddS 1#5 2#5 3#5 0#3) ∧
  decode Config.reset (.word 0x8330000F#32) = .ok .fenceTso ∧
  decode Config.reset (.half 0x4595#16) = .ok (.cLi 11#5 5#6)

/-- Decoding the code of a well-formed instruction gives it back, with every operand at every value (30_encoding.md
R170; 49_c.md R537). -/
def Obligations.DecodeInvertsEncode : Prop :=
  ∀ (c : Config) (i : Instr), i.wellFormed c = true → decode c (encode i) = .ok i

/-- A code that decodes is the code of the instruction it decodes to, so that no bit of it is dropped, and the
instruction is well-formed (30_encoding.md R170, R178). -/
def Obligations.EncodeInvertsDecode : Prop :=
  ∀ (c : Config) (k : Code) (i : Instr), decode c k = .ok i → encode i = k ∧ i.wellFormed c = true

/-- Two patterns are illegal in every configuration: bits 15:0 all zero (16 bits long with C, else 32), and the 32-bit
word of all ones; both raise IllegalInstruction (30_encoding.md R152). -/
def Obligations.TwoPatternsAreIllegal : Prop :=
  (∀ c : Config, isHalf c 0#16 = c.ext.c ∧ isHalf c 0xFFFF#16 = false) ∧
  (∀ (s s' : State), s.status = .running → s.cfg.aligned s.pc = true → s.fetch = .code (.half 0#16) s' →
    step s = .next (s'.trap .illegalInstruction 0#64 2)) ∧
  (∀ (s s' : State) (w : BitVec 32), s.status = .running → s.cfg.aligned s.pc = true → s.fetch = .code (.word w) s' →
    w.extractLsb' 0 16 = 0#16 ∨ w = 0xFFFFFFFF#32 → step s = .next (s'.trap .illegalInstruction (w.setWidth 64) 4))

/-! ### Exceptions -/

/-- Every instruction answers a next state in every state: none stops the machine. -/
def Obligations.EveryInstructionAnswersNext : Prop :=
  ∀ (i : Instr) (s : State), ∃ t : State, exec i s = .next t

/-- A raising instruction changes nothing but the status, records its own address and length, and is not counted; any
other instruction stays Running and is counted once in `instret` (60_exceptions.md R605, R606, R607; 10_state.md R41).
-/
def Obligations.RaisingInstructionChangesNothing : Prop :=
  ∀ (i : Instr) (s t : State), s.status = .running → exec i s = .next t →
    (∃ (cause : Cause) (tval : Word), t = s.trap cause tval i.ilen) ∨
    (t.status = .running ∧ t.instret = s.instret + 1)

/-- An instruction that the configuration does not have raises IllegalInstruction with its bits (30_encoding.md R178;
60_exceptions.md R609, R610). -/
def Obligations.AbsentInstructionRaisesIllegal : Prop :=
  ∀ (i : Instr) (s : State), i.wellFormed s.cfg = false →
    exec i s = .next (s.trap .illegalInstruction (encode i).bits i.ilen)

/-- On RV32E an instruction that names one of x16 to x31 raises IllegalInstruction (42_rv32e_rv64i_rv128i.md R271). -/
def Obligations.Rv32eUpperRegistersRaiseIllegal : Prop :=
  ∀ (i : Instr) (s : State) (r : Reg), s.cfg.base = .rv32e → r ∈ i.xregs → 16 ≤ r.toNat →
    exec i s = .next (s.trap .illegalInstruction (encode i).bits i.ilen)

/-- The instructions whose effect is an exception: ECALL raises EnvironmentCall, EBREAK and C.EBREAK raise Breakpoint,
with 0 recorded; the defined illegal instruction and the RV128 rows, which no admitted configuration has (log 21), raise
IllegalInstruction with their bits (60_exceptions.md R609, R614, R615; 41_rv32i_control_memory_system.md R257, R258;
49_c.md R535, R575, R586 to R589). -/
def Obligations.ExceptionInstructionsTrap : Prop :=
  ∀ (s : State) (rd rs2 : Reg) (r1 r2 : CReg) (o5 : BitVec 5) (o6 : BitVec 6),
    exec .ecall s = .next (s.trap .environmentCall 0#64 4) ∧
    exec .ebreak s = .next (s.trap .breakpoint 0#64 4) ∧
    (s.cfg.ext.c = true → exec .cEbreak s = .next (s.trap .breakpoint 0#64 2)) ∧
    exec .illegalAllZero s = .next (s.trap .illegalInstruction 0#64 2) ∧
    exec (.cLq r1 r2 o5) s = .next (s.trap .illegalInstruction (encode (.cLq r1 r2 o5)).bits 2) ∧
    exec (.cSq r1 r2 o5) s = .next (s.trap .illegalInstruction (encode (.cSq r1 r2 o5)).bits 2) ∧
    exec (.cLqsp rd o6) s = .next (s.trap .illegalInstruction (encode (.cLqsp rd o6)).bits 2) ∧
    exec (.cSqsp rs2 o6) s = .next (s.trap .illegalInstruction (encode (.cSqsp rs2 o6)).bits 2)

/-- A Trapped hart executes nothing: under `halt` it stays as it is for ever; `resume` by skipping or retrying sets only
`pc` and the status, and leaves the LR/SC loop the model follows. A service also sets `x`, `f`, `fcsr`, all the counters
and bytes of memory as the environment answers, at the widths of the configuration, the last write to an address
counting; it leaves, clears or registers a reservation, one that it leaves being lost where it writes a byte that the LR
read; the older values of the bytes it changes stay candidates of a fetch; it leaves the output trace and the
configuration. Any of the three is refused exactly where the new `pc` is not aligned (60_exceptions.md R605, R607, R614;
10_state.md R48; 44_a.md R336, R346; that `f` may be one of these three, and the form of the third, is the model's
choice, DESIGN CHOICE of log 11; the candidates log 15; the draw log 28). -/
def Obligations.TrappedHartHaltsOrResumes : Prop :=
  (∀ (s : State) (r : TrapRecord), s.status = .trapped r →
    let resumed := fun (t : State) (target : Word) =>
      step s = if s.cfg.aligned target = true then .next { t with pc := target, status := .running, loop := none }
        else .refused .misalignedResume
    (trapPolicy s.cfg r.cause = none → step s = .next s) ∧
    (trapPolicy s.cfg r.cause = some .skip → resumed s (s.cfg.truncate (r.epc + BitVec.ofNat 64 r.ilen))) ∧
    (trapPolicy s.cfg r.cause = some .retry → resumed s (s.cfg.truncate r.epc)) ∧
    (trapPolicy s.cfg r.cause = some .service →
      resumed (s.serve (Config.service r s)) (s.cfg.truncate (Config.service r s).pc))) ∧
  (∀ (s : State) (e : ServiceEffect),
    let t := s.serve e
    let X := 2 ^ s.cfg.xlen
    (∀ r : Reg, t.readX r = if r = 0#5 then 0#64 else s.cfg.truncate e.x[r.toNat]) ∧
    (∀ r : Reg, t.readF r = (e.f[r.toNat].setWidth s.cfg.flen).setWidth 128) ∧
    t.fcsr = e.fcsr ∧ t.cycle = e.cycle ∧ t.time = e.time ∧ t.instret = e.instret ∧ t.hpm = e.hpm ∧
    (∀ a : Nat, Memory.read t.memory a =
      ((e.writes.reverse.find? fun w => w.1 % X == a).map fun w => w.2).getD (Memory.read s.memory a)) ∧
    (∀ c ∈ s.stale, c ∈ t.stale) ∧
    (∀ a : Nat, Memory.read t.memory a ≠ Memory.read s.memory a → (a, Memory.read s.memory a) ∈ t.stale) ∧
    (e.reservation = .clear → t.reservation = none) ∧
    (∀ (b : Span) (extra : List Span), e.reservation = .register b extra →
      t.reservation = some { set := b :: extra, byteBase := b.base, byteCount := b.size }) ∧
    (e.reservation = .keep → s.reservation = none → t.reservation = none) ∧
    (∀ v : Reservation, e.reservation = .keep → s.reservation = some v →
      let hit := ∃ w ∈ e.writes, ∃ k < v.byteCount, w.1 % X = (v.byteBase + k) % X
      (hit → t.reservation = none) ∧ (¬ hit → t.reservation = some v)) ∧
    t = { s with x := t.x, f := t.f, fcsr := t.fcsr, cycle := t.cycle, time := t.time, instret := t.instret,
                 hpm := t.hpm, memory := t.memory, stale := t.stale, reservation := t.reservation,
                 draws := s.draws + 1 })

/-! ### Integer computation: the exact integer result, narrowed to XLEN bits -/

/-- LUI, AUIPC and the register-immediate instructions (40_rv32i_integer.md R201 to R212). -/
def Obligations.ImmediateResults : Prop :=
  ∀ (s : State) (rd rs1 : Reg) (imm : BitVec 12) (u : BitVec 20) (sh : BitVec 6),
    let a := s.intX rs1
    let k := imm.toInt
    let put := fun v : Int => Host.Outcome.next (s.afterX rd (.ofInt 64 v) 4)
    let ok := fun i : Instr => i.wellFormed s.cfg = true
    (ok (.lui rd u) → exec (.lui rd u) s = put (u.toInt * 2 ^ 12)) ∧
    (ok (.auipc rd u) → exec (.auipc rd u) s = put (s.pc.toNat + u.toInt * 2 ^ 12)) ∧
    (ok (.addi rd rs1 imm) → exec (.addi rd rs1 imm) s = put (a + k)) ∧
    (ok (.slti rd rs1 imm) → exec (.slti rd rs1 imm) s = put (if a < k then 1 else 0)) ∧
    (ok (.sltiu rd rs1 imm) →
      exec (.sltiu rd rs1 imm) s = put (if (s.natX rs1 : Int) < k % 2 ^ s.cfg.xlen then 1 else 0)) ∧
    (ok (.xori rd rs1 imm) →
      exec (.xori rd rs1 imm) s = .next (s.afterX rd (s.readX rs1 ^^^ imm.signExtend 64) 4)) ∧
    (ok (.ori rd rs1 imm) →
      exec (.ori rd rs1 imm) s = .next (s.afterX rd (s.readX rs1 ||| imm.signExtend 64) 4)) ∧
    (ok (.andi rd rs1 imm) →
      exec (.andi rd rs1 imm) s = .next (s.afterX rd (s.readX rs1 &&& imm.signExtend 64) 4)) ∧
    (ok (.slli rd rs1 sh) → exec (.slli rd rs1 sh) s = put (a * 2 ^ sh.toNat)) ∧
    (ok (.srli rd rs1 sh) → exec (.srli rd rs1 sh) s = put (s.natX rs1 / 2 ^ sh.toNat : Nat)) ∧
    (ok (.srai rd rs1 sh) → exec (.srai rd rs1 sh) s = put (a / 2 ^ sh.toNat))

/-- The register-register instructions; shifts use the low log2(XLEN) bits of `x[rs2]` (40_rv32i_integer.md R213 to
R222). -/
def Obligations.RegisterResults : Prop :=
  ∀ (s : State) (rd rs1 rs2 : Reg),
    let a := s.intX rs1
    let b := s.intX rs2
    let sh := s.natX rs2 % s.cfg.xlen
    let put := fun v : Int => Host.Outcome.next (s.afterX rd (.ofInt 64 v) 4)
    let ok := fun i : Instr => i.wellFormed s.cfg = true
    (ok (.add rd rs1 rs2) → exec (.add rd rs1 rs2) s = put (a + b)) ∧
    (ok (.sub rd rs1 rs2) → exec (.sub rd rs1 rs2) s = put (a - b)) ∧
    (ok (.sll rd rs1 rs2) → exec (.sll rd rs1 rs2) s = put (a * 2 ^ sh)) ∧
    (ok (.slt rd rs1 rs2) → exec (.slt rd rs1 rs2) s = put (if a < b then 1 else 0)) ∧
    (ok (.sltu rd rs1 rs2) → exec (.sltu rd rs1 rs2) s = put (if s.natX rs1 < s.natX rs2 then 1 else 0)) ∧
    (ok (.xor rd rs1 rs2) → exec (.xor rd rs1 rs2) s = .next (s.afterX rd (s.readX rs1 ^^^ s.readX rs2) 4)) ∧
    (ok (.srl rd rs1 rs2) → exec (.srl rd rs1 rs2) s = put (s.natX rs1 / 2 ^ sh : Nat)) ∧
    (ok (.sra rd rs1 rs2) → exec (.sra rd rs1 rs2) s = put (a / 2 ^ sh)) ∧
    (ok (.or rd rs1 rs2) → exec (.or rd rs1 rs2) s = .next (s.afterX rd (s.readX rs1 ||| s.readX rs2) 4)) ∧
    (ok (.and rd rs1 rs2) → exec (.and rd rs1 rs2) s = .next (s.afterX rd (s.readX rs1 &&& s.readX rs2) 4))

/-- The W forms of RV64I: on the low 32 bits, the 32-bit result sign-extended (42_rv32e_rv64i_rv128i.md R277 to
R286). -/
def Obligations.WordResults : Prop :=
  ∀ (s : State) (rd rs1 rs2 : Reg) (imm : BitVec 12) (sh : BitVec 5),
    let a := s.intW rs1
    let n := s.natW rs2 % 32
    let put := fun v : Int => Host.Outcome.next (s.afterX rd ((BitVec.ofInt 32 v).signExtend 64) 4)
    let ok := fun i : Instr => i.wellFormed s.cfg = true
    (ok (.addiw rd rs1 imm) → exec (.addiw rd rs1 imm) s = put (a + imm.toInt)) ∧
    (ok (.slliw rd rs1 sh) → exec (.slliw rd rs1 sh) s = put (a * 2 ^ sh.toNat)) ∧
    (ok (.srliw rd rs1 sh) → exec (.srliw rd rs1 sh) s = put (s.natW rs1 / 2 ^ sh.toNat : Nat)) ∧
    (ok (.sraiw rd rs1 sh) → exec (.sraiw rd rs1 sh) s = put (a / 2 ^ sh.toNat)) ∧
    (ok (.addw rd rs1 rs2) → exec (.addw rd rs1 rs2) s = put (a + s.intW rs2)) ∧
    (ok (.subw rd rs1 rs2) → exec (.subw rd rs1 rs2) s = put (a - s.intW rs2)) ∧
    (ok (.sllw rd rs1 rs2) → exec (.sllw rd rs1 rs2) s = put (a * 2 ^ n)) ∧
    (ok (.srlw rd rs1 rs2) → exec (.srlw rd rs1 rs2) s = put (s.natW rs1 / 2 ^ n : Nat)) ∧
    (ok (.sraw rd rs1 rs2) → exec (.sraw rd rs1 rs2) s = put (a / 2 ^ n))

/-- The multiplications: the low half, and the high halves as floors of the exact product (43_m.md R312 to R316). -/
def Obligations.MultiplyResults : Prop :=
  ∀ (s : State) (rd rs1 rs2 : Reg),
    let put := fun v : Int => Host.Outcome.next (s.afterX rd (.ofInt 64 v) 4)
    let ok := fun i : Instr => i.wellFormed s.cfg = true
    (ok (.mul rd rs1 rs2) → exec (.mul rd rs1 rs2) s = put (s.intX rs1 * s.intX rs2)) ∧
    (ok (.mulh rd rs1 rs2) → exec (.mulh rd rs1 rs2) s = put (s.intX rs1 * s.intX rs2 / 2 ^ s.cfg.xlen)) ∧
    (ok (.mulhsu rd rs1 rs2) → exec (.mulhsu rd rs1 rs2) s = put (s.intX rs1 * s.natX rs2 / 2 ^ s.cfg.xlen)) ∧
    (ok (.mulhu rd rs1 rs2) →
      exec (.mulhu rd rs1 rs2) s = put (s.natX rs1 * s.natX rs2 / 2 ^ s.cfg.xlen : Nat)) ∧
    (ok (.mulw rd rs1 rs2) → exec (.mulw rd rs1 rs2) s =
      .next (s.afterX rd ((BitVec.ofInt 32 (s.intW rs1 * s.intW rs2)).signExtend 64) 4))

/-- The divisions: towards zero; by zero the quotient is -1 (all ones) and the remainder the dividend (43_m.md R311,
R320 to R328). -/
def Obligations.DivideResults : Prop :=
  ∀ (s : State) (rd rs1 rs2 : Reg),
    let quot := fun a b : Int => if b = 0 then -1 else Int.tdiv a b
    let rem := fun a b : Int => if b = 0 then a else Int.tmod a b
    let put := fun v : Int => Host.Outcome.next (s.afterX rd (.ofInt 64 v) 4)
    let putW := fun v : Int => Host.Outcome.next (s.afterX rd ((BitVec.ofInt 32 v).signExtend 64) 4)
    let ok := fun i : Instr => i.wellFormed s.cfg = true
    (ok (.div rd rs1 rs2) → exec (.div rd rs1 rs2) s = put (quot (s.intX rs1) (s.intX rs2))) ∧
    (ok (.divu rd rs1 rs2) → exec (.divu rd rs1 rs2) s = put (quot (s.natX rs1) (s.natX rs2))) ∧
    (ok (.rem rd rs1 rs2) → exec (.rem rd rs1 rs2) s = put (rem (s.intX rs1) (s.intX rs2))) ∧
    (ok (.remu rd rs1 rs2) → exec (.remu rd rs1 rs2) s = put (rem (s.natX rs1) (s.natX rs2))) ∧
    (ok (.divw rd rs1 rs2) → exec (.divw rd rs1 rs2) s = putW (quot (s.intW rs1) (s.intW rs2))) ∧
    (ok (.divuw rd rs1 rs2) → exec (.divuw rd rs1 rs2) s = putW (quot (s.natW rs1) (s.natW rs2))) ∧
    (ok (.remw rd rs1 rs2) → exec (.remw rd rs1 rs2) s = putW (rem (s.intW rs1) (s.intW rs2))) ∧
    (ok (.remuw rd rs1 rs2) → exec (.remuw rd rs1 rs2) s = putW (rem (s.natW rs1) (s.natW rs2)))

/-- Division by zero and the signed overflow have defined results and raise nothing (43_m.md R320). -/
def Obligations.DivisionCornersAreDefined : Prop :=
  ∀ (s : State) (rd rs1 rs2 : Reg),
    let put := fun v : Int => Host.Outcome.next (s.afterX rd (.ofInt 64 v) 4)
    let putW := fun v : Int => Host.Outcome.next (s.afterX rd ((BitVec.ofInt 32 v).signExtend 64) 4)
    let ok := fun i : Instr => i.wellFormed s.cfg = true
    (s.natX rs2 = 0 →
      (ok (.divu rd rs1 rs2) → exec (.divu rd rs1 rs2) s = put (2 ^ s.cfg.xlen - 1)) ∧
      (ok (.remu rd rs1 rs2) → exec (.remu rd rs1 rs2) s = put (s.natX rs1)) ∧
      (ok (.div rd rs1 rs2) → exec (.div rd rs1 rs2) s = put (-1)) ∧
      (ok (.rem rd rs1 rs2) → exec (.rem rd rs1 rs2) s = put (s.intX rs1))) ∧
    (s.natW rs2 = 0 →
      (ok (.divuw rd rs1 rs2) → exec (.divuw rd rs1 rs2) s = putW (2 ^ 32 - 1)) ∧
      (ok (.remuw rd rs1 rs2) → exec (.remuw rd rs1 rs2) s = putW (s.natW rs1)) ∧
      (ok (.divw rd rs1 rs2) → exec (.divw rd rs1 rs2) s = putW (-1)) ∧
      (ok (.remw rd rs1 rs2) → exec (.remw rd rs1 rs2) s = putW (s.intW rs1))) ∧
    (s.intX rs1 = -(2 ^ (s.cfg.xlen - 1)) → s.intX rs2 = -1 →
      (ok (.div rd rs1 rs2) → exec (.div rd rs1 rs2) s = put (-(2 ^ (s.cfg.xlen - 1)))) ∧
      (ok (.rem rd rs1 rs2) → exec (.rem rd rs1 rs2) s = put 0)) ∧
    (s.intW rs1 = -(2 ^ 31) → s.intW rs2 = -1 →
      (ok (.divw rd rs1 rs2) → exec (.divw rd rs1 rs2) s = putW (-(2 ^ 31))) ∧
      (ok (.remw rd rs1 rs2) → exec (.remw rd rs1 rs2) s = putW 0))

/-- MULHU and MUL together hold the exact unsigned product, and DIVU and REMU rebuild the dividend, as DIV and REM do
modulo 2^XLEN, whatever the divisor is (43_m.md R311, R312, R315, R317, R320). -/
def Obligations.ProductAndQuotientRebuildOperands : Prop :=
  ∀ (s t u : State) (r1 r2 rs1 rs2 : Reg), r1 ≠ 0#5 → r2 ≠ 0#5 →
    ((Instr.mulhu r1 rs1 rs2).wellFormed s.cfg = true → exec (.mulhu r1 rs1 rs2) s = .next t →
      (Instr.mul r2 rs1 rs2).wellFormed s.cfg = true → exec (.mul r2 rs1 rs2) s = .next u →
      t.natX r1 * 2 ^ s.cfg.xlen + u.natX r2 = s.natX rs1 * s.natX rs2) ∧
    ((Instr.divu r1 rs1 rs2).wellFormed s.cfg = true → exec (.divu r1 rs1 rs2) s = .next t →
      (Instr.remu r2 rs1 rs2).wellFormed s.cfg = true → exec (.remu r2 rs1 rs2) s = .next u →
      (t.natX r1 * s.natX rs2 + u.natX r2) % 2 ^ s.cfg.xlen = s.natX rs1) ∧
    ((Instr.div r1 rs1 rs2).wellFormed s.cfg = true → exec (.div r1 rs1 rs2) s = .next t →
      (Instr.rem r2 rs1 rs2).wellFormed s.cfg = true → exec (.rem r2 rs1 rs2) s = .next u →
      (t.natX r1 * s.natX rs2 + u.natX r2) % 2 ^ s.cfg.xlen = s.natX rs1)

/-- The compressed computations, 2 bytes long; `x2` is the stack pointer (49_c.md R532, R534, R536, R540, R549 to
R564, R568, R574, R577). -/
def Obligations.CompressedComputationResults : Prop :=
  ∀ (s : State) (rd rs2 : Reg) (p q : CReg) (imm : BitVec 6) (w : BitVec 8),
    let a := s.intX rd
    let b := s.intX p.full
    let sh := imm.toNat
    let put := fun (r : Reg) (v : Int) => Host.Outcome.next (s.afterX r (.ofInt 64 v) 2)
    let putW := fun (r : Reg) (v : Int) => Host.Outcome.next (s.afterX r ((BitVec.ofInt 32 v).signExtend 64) 2)
    let bits := fun v : Word => Host.Outcome.next (s.afterX p.full v 2)
    let nop := Host.Outcome.next (s.afterPc (s.pcAfter 2))
    let ok := fun i : Instr => i.wellFormed s.cfg = true
    (ok (.cAddi4spn p w) → exec (.cAddi4spn p w) s = put p.full (s.intX 2#5 + 4 * w.toNat)) ∧
    (ok (.cNop imm) → exec (.cNop imm) s = nop) ∧
    (ok (.cAddi rd imm) → exec (.cAddi rd imm) s = put rd (a + imm.toInt)) ∧
    (ok (.cAddiw rd imm) → exec (.cAddiw rd imm) s = putW rd (s.intW rd + imm.toInt)) ∧
    (ok (.cLi rd imm) → exec (.cLi rd imm) s = put rd imm.toInt) ∧
    (ok (.cAddi16sp imm) → exec (.cAddi16sp imm) s = put 2#5 (s.intX 2#5 + 16 * imm.toInt)) ∧
    (ok (.cLui rd imm) → exec (.cLui rd imm) s = put rd (imm.toInt * 2 ^ 12)) ∧
    (ok (.cSrli p imm) → exec (.cSrli p imm) s = put p.full (s.natX p.full / 2 ^ sh : Nat)) ∧
    (ok (.cSrai p imm) → exec (.cSrai p imm) s = put p.full (b / 2 ^ sh)) ∧
    (ok (.cAndi p imm) → exec (.cAndi p imm) s = bits (s.readX p.full &&& imm.signExtend 64)) ∧
    (ok (.cSub p q) → exec (.cSub p q) s = put p.full (b - s.intX q.full)) ∧
    (ok (.cXor p q) → exec (.cXor p q) s = bits (s.readX p.full ^^^ s.readX q.full)) ∧
    (ok (.cOr p q) → exec (.cOr p q) s = bits (s.readX p.full ||| s.readX q.full)) ∧
    (ok (.cAnd p q) → exec (.cAnd p q) s = bits (s.readX p.full &&& s.readX q.full)) ∧
    (ok (.cSubw p q) → exec (.cSubw p q) s = putW p.full (s.intW p.full - s.intW q.full)) ∧
    (ok (.cAddw p q) → exec (.cAddw p q) s = putW p.full (s.intW p.full + s.intW q.full)) ∧
    (ok (.cSlli rd imm) → exec (.cSlli rd imm) s = put rd (a * 2 ^ sh)) ∧
    (ok (.cMv rd rs2) → exec (.cMv rd rs2) s = put rd (s.intX rs2)) ∧
    (ok (.cAdd rd rs2) → exec (.cAdd rd rs2) s = put rd (a + s.intX rs2)) ∧
    (ok (.cSlli64 rd) → exec (.cSlli64 rd) s = nop) ∧
    (ok (.cSrli64 p) → exec (.cSrli64 p) s = nop) ∧
    (ok (.cSrai64 p) → exec (.cSrai64 p) s = nop)

/-! ### Control transfer -/

/-- The jumps to an aligned target: the link is the address after the jump, sources are read before it is written, and
bit 0 of a register target is cleared (41_rv32i_control_memory_system.md R232, R234; 49_c.md R551, R565, R573,
R576). -/
def Obligations.JumpResults : Prop :=
  ∀ (s : State) (rd rs1 : Reg) (imm : BitVec 12) (o20 : BitVec 20) (o11 : BitVec 11),
    let rel := fun d : Int => s.cfg.truncate (BitVec.ofInt 64 (s.pc.toNat + d))
    let even := fun v : Word => BitVec.ofNat 64 (v.toNat / 2 * 2)
    let reg := even (s.cfg.truncate (BitVec.ofInt 64 ((s.readX rs1).toNat + imm.toInt)))
    let creg := even (s.readX rs1)
    let go := fun (i : Instr) (link : Reg) (target : Word) (len : Nat) =>
      i.wellFormed s.cfg = true → s.cfg.aligned target = true →
        exec i s = .next (s.afterLink link (s.pcAfter len) target)
    go (.jal rd o20) rd (rel (2 * o20.toInt)) 4 ∧
    go (.jalr rd rs1 imm) rd reg 4 ∧
    go (.cJal o11) 1#5 (rel (2 * o11.toInt)) 2 ∧
    go (.cJ o11) 0#5 (rel (2 * o11.toInt)) 2 ∧
    go (.cJr rs1) 0#5 creg 2 ∧
    go (.cJalr rs1) 1#5 creg 2

/-- The branches: not taken, the next instruction whatever the target is; taken, an aligned target
(41_rv32i_control_memory_system.md R231, R235 to R241; 49_c.md R566, R567). -/
def Obligations.BranchResults : Prop :=
  ∀ (s : State) (rs1 rs2 : Reg) (p : CReg) (off : BitVec 12) (o8 : BitVec 8),
    let rel := fun d : Int => s.cfg.truncate (BitVec.ofInt 64 (s.pc.toNat + d))
    let go := fun (i : Instr) (taken : Prop) (target : Word) (len : Nat) =>
      i.wellFormed s.cfg = true →
        (¬ taken → exec i s = .next (s.afterPc (s.pcAfter len))) ∧
        (taken → s.cfg.aligned target = true → exec i s = .next (s.afterPc target))
    let far := rel (2 * off.toInt)
    let near := rel (2 * o8.toInt)
    go (.beq rs1 rs2 off) (s.intX rs1 = s.intX rs2) far 4 ∧
    go (.bne rs1 rs2 off) (s.intX rs1 ≠ s.intX rs2) far 4 ∧
    go (.blt rs1 rs2 off) (s.intX rs1 < s.intX rs2) far 4 ∧
    go (.bge rs1 rs2 off) (s.intX rs1 ≥ s.intX rs2) far 4 ∧
    go (.bltu rs1 rs2 off) (s.natX rs1 < s.natX rs2) far 4 ∧
    go (.bgeu rs1 rs2 off) (s.natX rs1 ≥ s.natX rs2) far 4 ∧
    go (.cBeqz p o8) (s.intX p.full = 0) near 2 ∧
    go (.cBnez p o8) (s.intX p.full ≠ 0) near 2

/-- A jump or taken branch to a target that is not a multiple of IALIGN/8 raises on itself, records the target and
writes no link; with C present and `pc` even none does (41_rv32i_control_memory_system.md R231; 60_exceptions.md
R611). -/
def Obligations.MisalignedTargetsTrap : Prop :=
  ∀ (s : State) (rd rs1 rs2 : Reg) (imm off : BitVec 12) (o20 : BitVec 20),
    let bad := fun (i : Instr) (target : Word) =>
      i.wellFormed s.cfg = true → s.cfg.aligned target = false →
        exec i s = .next (s.trap .instructionAddressMisaligned target 4)
    let fine := fun i : Instr =>
      s.status = .running → i.wellFormed s.cfg = true → s.cfg.ext.c = true → s.cfg.aligned s.pc = true →
        ∃ t : State, exec i s = .next t ∧ t.status = .running ∧ s.cfg.aligned t.pc = true
    bad (.jal rd o20) (s.target o20) ∧ fine (.jal rd o20) ∧
    bad (.jalr rd rs1 imm) (clearBit0 (s.ea rs1 imm)) ∧ fine (.jalr rd rs1 imm) ∧
    (s.intX rs1 = s.intX rs2 → bad (.beq rs1 rs2 off) (s.target off)) ∧ fine (.beq rs1 rs2 off) ∧
    (s.intX rs1 ≠ s.intX rs2 → bad (.bne rs1 rs2 off) (s.target off)) ∧ fine (.bne rs1 rs2 off) ∧
    (s.intX rs1 < s.intX rs2 → bad (.blt rs1 rs2 off) (s.target off)) ∧ fine (.blt rs1 rs2 off) ∧
    (s.intX rs1 ≥ s.intX rs2 → bad (.bge rs1 rs2 off) (s.target off)) ∧ fine (.bge rs1 rs2 off) ∧
    (s.natX rs1 < s.natX rs2 → bad (.bltu rs1 rs2 off) (s.target off)) ∧ fine (.bltu rs1 rs2 off) ∧
    (s.natX rs1 ≥ s.natX rs2 → bad (.bgeu rs1 rs2 off) (s.target off)) ∧ fine (.bgeu rs1 rs2 off)

/-- FENCE, FENCE.TSO and PAUSE only advance `pc`; FENCE.I also discards the older fetch candidates; the unused fields
are ignored (41_rv32i_control_memory_system.md R255, R256, R260, R262; 20_memory.md R79; log 22). -/
def Obligations.FenceResults : Prop :=
  ∀ (s : State) (fm pred succ : BitVec 4) (rs1 rd : Reg) (imm : BitVec 12),
    let nop := Host.Outcome.next (s.afterPc (s.pcAfter 4))
    ((Instr.fence fm pred succ rs1 rd).wellFormed s.cfg = true → exec (.fence fm pred succ rs1 rd) s = nop) ∧
    exec .fenceTso s = nop ∧ exec .pause s = nop ∧
    (s.cfg.ext.zifencei = true →
      exec (.fenceI imm rs1 rd) s = .next { s.afterPc (s.pcAfter 4) with stale := [] })

/-! ### Loads and stores -/

/-- The integer loads whose checks pass: `x[rd]` gets the bytes, sign- or zero-extended
(41_rv32i_control_memory_system.md R242 to R247; 42_rv32e_rv64i_rv128i.md R288, R289; 49_c.md R542, R544, R570, R572;
the bytes: `ReadBytesFollowTheRegions`, `MemReadOrdersBytes`). -/
def Obligations.LoadResults : Prop :=
  ∀ (s : State) (rd rs1 : Reg) (imm : BitVec 12) (p q : CReg) (o5 : BitVec 5) (o6 : BitVec 6),
    let go := fun (i : Instr) (n : Nat) (sgn : Bool) (d : Reg) (ea : Word) (len : Nat) =>
      i.wellFormed s.cfg = true → dataFault s.cfg .read ea n = none →
        exec i s = .next ((s.memRead ea n).2.afterX d
          (if sgn then (s.memRead ea n).1.signExtend 64 else (s.memRead ea n).1.setWidth 64) len)
    let ea := s.cfg.truncate (BitVec.ofInt 64 ((s.readX rs1).toNat + imm.toInt))
    let up := fun (r : Reg) (d : Nat) => s.cfg.truncate (BitVec.ofNat 64 ((s.readX r).toNat + d))
    go (.lb rd rs1 imm) 1 true rd ea 4 ∧ go (.lh rd rs1 imm) 2 true rd ea 4 ∧ go (.lw rd rs1 imm) 4 true rd ea 4 ∧
    go (.lbu rd rs1 imm) 1 false rd ea 4 ∧ go (.lhu rd rs1 imm) 2 false rd ea 4 ∧
    go (.lwu rd rs1 imm) 4 false rd ea 4 ∧ go (.ld rd rs1 imm) 8 true rd ea 4 ∧
    go (.cLw p q o5) 4 true p.full (up q.full (4 * o5.toNat)) 2 ∧
    go (.cLd p q o5) 8 true p.full (up q.full (8 * o5.toNat)) 2 ∧
    go (.cLwsp rd o6) 4 true rd (up 2#5 (4 * o6.toNat)) 2 ∧
    go (.cLdsp rd o6) 8 true rd (up 2#5 (8 * o6.toNat)) 2

/-- The integer stores whose checks pass: the low bytes of `x[rs2]` go to memory
(41_rv32i_control_memory_system.md R242, R249 to R251; 42_rv32e_rv64i_rv128i.md R290; 49_c.md R546, R548, R579, R581;
the bytes: `MemWriteOrdersBytes`). -/
def Obligations.StoreResults : Prop :=
  ∀ (s : State) (rs1 rs2 : Reg) (imm : BitVec 12) (p q : CReg) (o5 : BitVec 5) (o6 : BitVec 6),
    let go := fun (i : Instr) (n : Nat) (src : Reg) (ea : Word) (len : Nat) =>
      i.wellFormed s.cfg = true → dataFault s.cfg .write ea n = none →
        exec i s = .next ((s.memWrite ea n ((s.readX src).setWidth (8 * n))).afterPc (s.pcAfter len))
    let ea := s.cfg.truncate (BitVec.ofInt 64 ((s.readX rs1).toNat + imm.toInt))
    let up := fun (r : Reg) (d : Nat) => s.cfg.truncate (BitVec.ofNat 64 ((s.readX r).toNat + d))
    go (.sb rs1 rs2 imm) 1 rs2 ea 4 ∧ go (.sh rs1 rs2 imm) 2 rs2 ea 4 ∧ go (.sw rs1 rs2 imm) 4 rs2 ea 4 ∧
    go (.sd rs1 rs2 imm) 8 rs2 ea 4 ∧
    go (.cSw p q o5) 4 q.full (up p.full (4 * o5.toNat)) 2 ∧
    go (.cSd p q o5) 8 q.full (up p.full (8 * o5.toNat)) 2 ∧
    go (.cSwsp rs2 o6) 4 rs2 (up 2#5 (4 * o6.toNat)) 2 ∧
    go (.cSdsp rs2 o6) 8 rs2 (up 2#5 (8 * o6.toNat)) 2

/-- The floating-point loads and stores whose checks pass: a narrower value is boxed on load, the raw low bits are
stored, and no flag changes (46_f.md R411, R412; 47_d.md R453, R455, R456; 48_q.md R492, R493; 49_c.md R541, R543,
R545, R547, R569, R571, R578, R580). -/
def Obligations.FloatLoadStoreResults : Prop :=
  ∀ (s : State) (rd rs1 rs2 : Reg) (imm : BitVec 12) (p q : CReg) (o5 : BitVec 5) (o6 : BitVec 6),
    let load := fun (i : Instr) (F : Fmt) (d : Reg) (ea : Word) (len : Nat) =>
      i.wellFormed s.cfg = true → dataFault s.cfg .read ea (F.width / 8) = none →
        exec i s = .next ((s.memRead ea (F.width / 8)).2.afterF d
          (box s.cfg F ((s.memRead ea (F.width / 8)).1.setWidth F.width)) len)
    let store := fun (i : Instr) (F : Fmt) (src : Reg) (ea : Word) (len : Nat) =>
      i.wellFormed s.cfg = true → dataFault s.cfg .write ea (F.width / 8) = none →
        exec i s = .next ((s.memWrite ea (F.width / 8) ((s.readF src).setWidth (8 * (F.width / 8)))).afterPc
          (s.pcAfter len))
    let ea := s.cfg.truncate (BitVec.ofInt 64 ((s.readX rs1).toNat + imm.toInt))
    let up := fun (r : Reg) (d : Nat) => s.cfg.truncate (BitVec.ofNat 64 ((s.readX r).toNat + d))
    load (.flw rd rs1 imm) .s rd ea 4 ∧ load (.fld rd rs1 imm) .d rd ea 4 ∧ load (.flq rd rs1 imm) .q rd ea 4 ∧
    load (.cFlw p q o5) .s p.full (up q.full (4 * o5.toNat)) 2 ∧
    load (.cFld p q o5) .d p.full (up q.full (8 * o5.toNat)) 2 ∧
    load (.cFlwsp rd o6) .s rd (up 2#5 (4 * o6.toNat)) 2 ∧
    load (.cFldsp rd o6) .d rd (up 2#5 (8 * o6.toNat)) 2 ∧
    store (.fsw rs1 rs2 imm) .s rs2 ea 4 ∧ store (.fsd rs1 rs2 imm) .d rs2 ea 4 ∧
    store (.fsq rs1 rs2 imm) .q rs2 ea 4 ∧
    store (.cFsw p q o5) .s q.full (up p.full (4 * o5.toNat)) 2 ∧
    store (.cFsd p q o5) .d q.full (up p.full (8 * o5.toNat)) 2 ∧
    store (.cFswsp rs2 o6) .s rs2 (up 2#5 (4 * o6.toNat)) 2 ∧
    store (.cFsdsp rs2 o6) .d rs2 (up 2#5 (8 * o6.toNat)) 2

/-- Every load, store and atomic whose checks fail raises the cause they give, records the effective address, and
accesses nothing (20_memory.md R67, R68, R70, R73; 44_a.md R331; 60_exceptions.md R609, R613, R616). -/
def Obligations.FaultingAccessTraps : Prop :=
  ∀ (i : Instr) (s : State) (a : Access) (cause : Cause), i.wellFormed s.cfg = true →
    (i.footprint s).access = some a → a.fault s.cfg = some cause → exec i s = .next (s.trap cause a.ea i.ilen)

/-- When the checks of a load, store or atomic fail, and how. A misaligned load or store raises the address-misaligned
exception, or the access fault, that MISALIGNED asks for, and under `complete` goes on to the next check; a misaligned
LR or SC always, and a misaligned AMO without Zam, raises address-misaligned; an access with an inaccessible byte raises
the access fault; no other access raises. LR and loads report as loads; stores, SC and AMOs as stores (20_memory.md R67,
R68, R69, R70; 44_a.md R331; 60_exceptions.md R613, R616, R620; that LR and SC, and AMOs without Zam, raise
address-misaligned and AMOs report as stores are the spec's decisions: 92_eei_decisions.md D22, D24, D27; one flag of a
region permits all atomics: log 20). -/
def Obligations.AlignedAccessesNeverMisaligned : Prop :=
  ∀ (c : Config) (a : Access),
    let misaligned := a.ea.toNat % a.n ≠ 0
    let permitted := fun b : Nat => ∃ r : Region, regionAt c b = some r ∧ (a.kind ≠ .write → r.read = true) ∧
      (a.kind ≠ .read → r.write = true) ∧ a.n ∈ r.widths ∧ (a.atomic = true → r.atomic = true)
    let accessible := ∀ i < a.n, permitted ((a.ea.toNat + i) % 2 ^ c.xlen)
    let misalignedCause := if a.kind = .read then Cause.loadAddressMisaligned else Cause.storeAddressMisaligned
    let accessCause := if a.kind = .read then Cause.loadAccessFault else Cause.storeAccessFault
    let policy := misalignedEffect c a.ea a.n
    (a.atomic = false → misaligned →
      (policy = .addressMisaligned → a.fault c = some misalignedCause) ∧
      (policy = .accessFault → a.fault c = some accessCause) ∧
      (policy = .complete → (accessible → a.fault c = none) ∧ (¬ accessible → a.fault c = some accessCause))) ∧
    (a.atomic = true → misaligned →
      (a.kind ≠ .readWrite ∨ c.ext.zam = false → a.fault c = some misalignedCause) ∧
      (a.kind = .readWrite → c.ext.zam = true →
        (accessible → a.fault c = none) ∧ (¬ accessible → a.fault c = some accessCause))) ∧
    (¬ misaligned → (accessible → a.fault c = none) ∧ (¬ accessible → a.fault c = some accessCause)) ∧
    (c.misalignedRules = [] → policy = c.misaligned)

/-- `MemRead`: the bytes read, in ascending address order modulo 2^XLEN, are the value's bytes from the least
significant up in little-endian order and from the most significant down in big-endian order (20_memory.md R64). -/
def Obligations.MemReadOrdersBytes : Prop :=
  ∀ (s : State) (ea : Word) (n i : Nat) (whole : Bool), i < n →
    let bs := s.readBytes ea n whole
    let v := (s.memRead ea n whole).1
    (s.cfg.endian = .little → bs[i]? = some (v.extractLsb' (8 * i) 8)) ∧
    (s.cfg.endian = .big → bs[i]? = some (v.extractLsb' (8 * (n - 1 - i)) 8))

/-- Reading the bytes of an access: main memory supplies its contents; a byte of an I/O location is its byte of the one
free value that the device supplies to the memory operation it belongs to. An aligned access no wider than XLEN is one
operation, and so is an AMO that its granule makes `whole` (`AmoResults` says which); of any other the operations are a
partition of its bytes. Only the draw counter moves, and only where a device is read (20_memory.md R61, R71, R72, R77;
21_memory_model.md R104, R105, R126; 60_exceptions.md R627; the free values and the counter are the model's, logs 18,
28). -/
def Obligations.ReadBytesFollowTheRegions : Prop :=
  ∀ (s : State) (ea : Word) (n i : Nat) (whole : Bool), i < n →
    let addr := fun i : Nat => (ea.toNat + i) % 2 ^ s.cfg.xlen
    let ops := s.operations ea n whole
    (isIo s.cfg (addr i) = false → (s.readBytes ea n whole)[i]? = some (Memory.read s.memory (addr i))) ∧
    (isIo s.cfg (addr i) = true → ∃ (k : Nat) (o : List Nat), ops[k]? = some o ∧ i ∈ o ∧
      (s.readBytes ea n whole)[i]? = some ((Config.ioValue (s.draws + 1 + k)).extractLsb' (8 * i) 8)) ∧
    ops.flatten.Perm (List.range n) ∧ (∀ o ∈ ops, o ≠ []) ∧
    (whole = true ∨ (ea.toNat % n = 0 ∧ 8 * n ≤ s.cfg.xlen) → ops = [List.range n]) ∧
    ((∀ j < n, isIo s.cfg (addr j) = false) → (s.memRead ea n whole).2 = s) ∧
    ((∃ j < n, isIo s.cfg (addr j) = true) →
      (s.memRead ea n whole).2 = { s with draws := s.draws + 1 + ops.length })

/-- `MemWrite` of 1, 2, 4, 8 or 16 bytes: each byte of main memory gets its byte of the value in the configured order,
every other address reads as before, and the bytes stored to I/O locations go to the output trace instead, one entry for
each memory operation of the access that reaches one (20_memory.md R60, R65, R71, R72; 60_exceptions.md R627; that the
trace keeps program order, and the addresses of an entry ascending order, is the model's choice, log 18). -/
def Obligations.MemWriteOrdersBytes : Prop :=
  ∀ (s : State) (ea : Word) (n : Nat) (v : BitVec (8 * n)) (whole : Bool), n ∈ [1, 2, 4, 8, 16] →
    let t := s.memWrite ea n v whole
    let byte := fun i : Nat =>
      match s.cfg.endian with
      | .little => v.extractLsb' (8 * i) 8
      | .big => v.extractLsb' (8 * (n - 1 - i)) 8
    let addr := fun i : Nat => (ea.toNat + i) % 2 ^ s.cfg.xlen
    let output := fun o : List Nat => (o.map fun i => (addr i, byte i)).filter fun c => isIo s.cfg c.1
    (∀ i < n, isIo s.cfg (addr i) = false → Memory.read t.memory (addr i) = byte i) ∧
    (∀ a : Nat, (∀ i < n, addr i ≠ a) → Memory.read t.memory a = Memory.read s.memory a) ∧
    (∀ i < n, isIo s.cfg (addr i) = true → Memory.read t.memory (addr i) = Memory.read s.memory (addr i)) ∧
    t.ioTrace = s.ioTrace ++ ((s.operations ea n whole).map output).filter (fun o => !o.isEmpty) ∧
    t = { s with memory := t.memory, stale := t.stale, ioTrace := t.ioTrace, draws := t.draws }

/-- A load returns what the hart's own preceding store to the same bytes of main memory put there (20_memory.md R64,
R65; 21_memory_model.md R101). -/
def Obligations.LoadAfterStoreReturnsValue : Prop :=
  ∀ (s : State) (ea : Word) (n : Nat) (v : BitVec (8 * n)) (stored loaded : Bool), n ∈ [1, 2, 4, 8, 16] →
    (∀ i < n, isIo s.cfg ((ea.toNat + i) % 2 ^ s.cfg.xlen) = false) →
    (s.memWrite ea n v stored).memRead ea n loaded = (v, s.memWrite ea n v stored)

/-! ### Atomics -/

/-- LR whose checks pass: `x[rd]` gets the sign-extended value and a reservation that covers the bytes read replaces any
earlier one, whatever `aq` and `rl` are; its set is the bytes read, the block around them, or what the table lists with
them. In memory with the eventuality property it enters an LR/SC loop, or repeats the one whose SC has failed with its
count and its patience kept (44_a.md R332, R333, R340, R342, R345, R346; the three forms of the set are log 17's, the
loop is the model's own field, log 16). -/
def Obligations.LoadReservedResults : Prop :=
  ∀ (s : State) (rd rs1 : Reg) (aq rl : BitVec 1) (target : Word),
    let go := fun (i : Instr) (n : Nat) =>
      let ea := s.readX rs1
      let r := reserve s.cfg ea n
      let inSet := fun a : Nat => r.set.any (fun p => p.holds s.cfg a) = true
      (i.wellFormed s.cfg = true → atomicFault s.cfg .read ea n = none →
        exec i s = .next
          { (s.memRead ea n).2.afterX rd ((s.memRead ea n).1.signExtend 64) 4 with reservation := some r }) ∧
      r.byteBase = ea.toNat ∧ r.byteCount = n ∧ r.covers s.cfg ea n = true ∧
      (s.cfg.reservationSet = .exact → ∀ a < 2 ^ s.cfg.xlen, inSet a ↔
        ∃ k < n, a = (ea.toNat + k) % 2 ^ s.cfg.xlen) ∧
      (∀ k : Nat, s.cfg.reservationSet = .block k →
        ∀ j < 2 ^ k, inSet ((ea.toNat / 2 ^ k * 2 ^ k + j) % 2 ^ s.cfg.xlen)) ∧
      (∀ (rules : List ReservationRule) (u : ReservationRule) (p : Span), s.cfg.reservationSet = .table rules →
        u ∈ rules → u.width = n → u.base ≤ ea.toNat → ea.toNat < u.base + u.size → p ∈ u.extra →
        ∀ j < p.size, inSet ((p.base + j) % 2 ^ s.cfg.xlen)) ∧
      (eventual s.cfg ea n = false → s.loopAfter i target = none) ∧
      (eventual s.cfg ea n = true → ∃ l : RetryLoop, s.loopAfter i target = some l ∧ l.lrPc = s.pc ∧ l.ea = ea ∧
        l.n = n ∧ l.retrying = false ∧
        (s.loop = none → l.failures = 0) ∧
        (∀ m : RetryLoop, s.loop = some m → m.retrying = true → m.lrPc = s.pc →
          s.sequential (m.reach s.cfg s.pc).last 16 (m.reach s.cfg s.pc).first = true →
          l.failures = m.failures ∧ l.patience = m.patience))
    go (.lrW rd rs1 aq rl) 4 ∧ go (.lrD rd rs1 aq rl) 8

/-- SC whose checks pass: without a reservation that covers its bytes it stores nothing and writes SC_FAIL_CODE; with
one it stores and writes 0 where the environment never fails an SC, and does either where an oracle may; the reservation
is cleared in any case. The oracle keeps the guarantee for constrained loops: of a loop of at most 16 instructions,
entered in memory with the eventuality property, each failed SC is counted, and the SC to the address and size of its LR
succeeds once the count exceeds what the environment drew when the loop was entered. A legal SC_FAIL_CODE is not zero in
XLEN bits, and its default is 1 (44_a.md R334, R335, R341, R343, R345, R346; 70_reset_and_hazards.md R654;
92_eei_decisions.md D12; the count and the draw are the model's, logs 16, 28; the parameter log 35). -/
def Obligations.StoreConditionalResults : Prop :=
  (∀ (s : State) (rd rs1 rs2 : Reg) (aq rl : BitVec 1),
    let go := fun (i : Instr) (n : Nat) =>
      let ea := s.readX rs1
      let won := fun s' : State =>
        { (s'.memWrite ea n ((s.readX rs2).setWidth (8 * n))).afterX rd 0#64 4 with reservation := none }
      let lost := fun s' : State => { s'.afterX rd s.cfg.scFailCode 4 with reservation := none }
      let drawn := { s with draws := s.draws + 1 }
      let covered := ∃ r : Reservation, s.reservation = some r ∧ r.covers s.cfg ea n = true
      i.wellFormed s.cfg = true → atomicFault s.cfg .write ea n = none →
        (s.cfg.scMayFail = .never → (covered → exec i s = .next (won s)) ∧ (¬ covered → exec i s = .next (lost s))) ∧
        (s.cfg.scMayFail = .oracle →
          (¬ covered → exec i s = .next (lost drawn)) ∧
          (covered → exec i s = .next (won drawn) ∨ exec i s = .next (lost drawn)) ∧
          (∀ l : RetryLoop, s.loop = some l → l.retrying = false → l.ea = ea → l.n = n →
            let r := l.reach s.cfg s.pc
            (covered → l.patience < l.failures → s.sequential r.last 16 r.first = true → exec i s = .next (won drawn)) ∧
            (exec i s = .next (lost drawn) → exec i s ≠ .next (won drawn) → ∀ target : Word,
              s.loopAfter i target = some { r with retrying := true, failures := l.failures + 1 })))
    go (.scW rd rs1 rs2 aq rl) 4 ∧ go (.scD rd rs1 rs2 aq rl) 8) ∧
  (∀ c : Config, c.legal = true → c.truncate c.scFailCode ≠ 0#64) ∧ Config.reset.scFailCode = 1#64

/-- Every completed SC clears the reservation, whether it succeeds or fails; one that raises leaves it (44_a.md
R335). -/
def Obligations.StoreConditionalClearsReservation : Prop :=
  ∀ (s t : State) (rd rs1 rs2 : Reg) (aq rl : BitVec 1), s.status = .running →
    exec (.scW rd rs1 rs2 aq rl) s = .next t ∨ exec (.scD rd rs1 rs2 aq rl) s = .next t →
    (t.status = .running → t.reservation = none) ∧ (t.status ≠ .running → t.reservation = s.reservation)

/-- An AMO whose checks pass reads the old value, stores the operation's result, and writes the sign-extended old value
to `x[rd]`, whatever `aq` and `rl` are. Where its bytes lie in one granule of MISALIGNED_ATOMIC_GRANULE its read and its
write are one memory operation each, also at a misaligned address, as those of an aligned AMO are; without granules a
misaligned one has no such guarantee (44_a.md R332, R350 to R359; 21_memory_model.md R104, R126; 92_eei_decisions.md
D24; the form of the parameter is the model's, log 29). -/
def Obligations.AmoResults : Prop :=
  (∀ (s : State) (rd rs1 rs2 : Reg) (aq rl : BitVec 1),
    let go := fun (i : Instr) (n : Nat) (op : BitVec (8 * n) → BitVec (8 * n) → BitVec (8 * n)) =>
      let ea := s.readX rs1
      let whole := amoWhole s.cfg ea n
      let old := (s.memRead ea n whole).1
      i.wellFormed s.cfg = true → atomicFault s.cfg .readWrite ea n = none →
        exec i s = .next (((s.memRead ea n whole).2.memWrite ea n (op old ((s.readX rs2).setWidth (8 * n))) whole).afterX
          rd (old.signExtend 64) 4)
    go (.amoswapW rd rs1 rs2 aq rl) 4 (fun _ v => v) ∧ go (.amoswapD rd rs1 rs2 aq rl) 8 (fun _ v => v) ∧
    go (.amoaddW rd rs1 rs2 aq rl) 4 (fun t v => t + v) ∧ go (.amoaddD rd rs1 rs2 aq rl) 8 (fun t v => t + v) ∧
    go (.amoxorW rd rs1 rs2 aq rl) 4 (fun t v => t ^^^ v) ∧ go (.amoxorD rd rs1 rs2 aq rl) 8 (fun t v => t ^^^ v) ∧
    go (.amoandW rd rs1 rs2 aq rl) 4 (fun t v => t &&& v) ∧ go (.amoandD rd rs1 rs2 aq rl) 8 (fun t v => t &&& v) ∧
    go (.amoorW rd rs1 rs2 aq rl) 4 (fun t v => t ||| v) ∧ go (.amoorD rd rs1 rs2 aq rl) 8 (fun t v => t ||| v) ∧
    go (.amominW rd rs1 rs2 aq rl) 4 (fun t v => if t.toInt < v.toInt then t else v) ∧
    go (.amominD rd rs1 rs2 aq rl) 8 (fun t v => if t.toInt < v.toInt then t else v) ∧
    go (.amomaxW rd rs1 rs2 aq rl) 4 (fun t v => if t.toInt > v.toInt then t else v) ∧
    go (.amomaxD rd rs1 rs2 aq rl) 8 (fun t v => if t.toInt > v.toInt then t else v) ∧
    go (.amominuW rd rs1 rs2 aq rl) 4 (fun t v => if t.toNat < v.toNat then t else v) ∧
    go (.amominuD rd rs1 rs2 aq rl) 8 (fun t v => if t.toNat < v.toNat then t else v) ∧
    go (.amomaxuW rd rs1 rs2 aq rl) 4 (fun t v => if t.toNat > v.toNat then t else v) ∧
    go (.amomaxuD rd rs1 rs2 aq rl) 8 (fun t v => if t.toNat > v.toNat then t else v)) ∧
  (∀ (s : State) (ea : Word) (n k : Nat) (g : AtomicGranule), 0 < n → g ∈ s.cfg.atomicGranules →
    g.base + g.size ≤ 2 ^ s.cfg.xlen → g.base + k * g.bytes ≤ ea.toNat →
    ea.toNat + n ≤ g.base + (k + 1) * g.bytes → ea.toNat + n ≤ g.base + g.size →
      s.operations ea n (amoWhole s.cfg ea n) = [List.range n]) ∧
  (∀ (c : Config) (ea : Word) (n : Nat), c.atomicGranules = [] → amoWhole c ea n = false)

/-! ### CSRs -/

/-- The six CSR instructions on `fflags`, `frm` and `fcsr`: the old value, zero-extended, goes to `x[rd]`; the new value
is written to the bits of the view and to no other; a set or clear form with a zero source field writes nothing
(10_state.md R35 to R38; 45_zicsr_counters.md R371 to R377, R379, R386, R387). -/
def Obligations.FloatCsrResults : Prop :=
  ∀ (s : State) (rd rs1 : Reg) (uimm : BitVec 5) (csr : BitVec 12), s.cfg.ext.f = true →
    let go := fun (old : Word) (write : Word → BitVec 8) =>
      let did := fun (i : Instr) (writes : Prop) (new : Word) =>
        i.wellFormed s.cfg = true →
          (writes → exec i s = .next { s.afterX rd old 4 with fcsr := write new }) ∧
          (¬ writes → exec i s = .next (s.afterX rd old 4))
      let src := s.readX rs1
      let u := uimm.setWidth 64
      did (.csrrw rd rs1 csr) True src ∧
      did (.csrrs rd rs1 csr) (rs1 ≠ 0#5) (old ||| src) ∧
      did (.csrrc rd rs1 csr) (rs1 ≠ 0#5) (old &&& ~~~src) ∧
      did (.csrrwi rd uimm csr) True u ∧
      did (.csrrsi rd uimm csr) (uimm ≠ 0#5) (old ||| u) ∧
      did (.csrrci rd uimm csr) (uimm ≠ 0#5) (old &&& ~~~u)
    let frm := s.fcsr.extractLsb' 5 3
    let fflags := s.fcsr.extractLsb' 0 5
    (csr = 0x001#12 → go (fflags.setWidth 64) fun v => frm ++ v.extractLsb' 0 5) ∧
    (csr = 0x002#12 → go (frm.setWidth 64) fun v => v.extractLsb' 0 3 ++ fflags) ∧
    (csr = 0x003#12 → go (s.fcsr.setWidth 64) fun v => v.extractLsb' 0 8)

/-- Reading a counter with a set or clear form that writes nothing: `instret` before the instruction; `cycle` and `time`
having advanced by a free amount since they were last read; an implemented hpmcounter as it stands; whole on RV64, the
low or the high half on RV32 (10_state.md R39 to R43; 45_zicsr_counters.md R371, R383, R388, R391; that an hpmcounter
keeps its value between services is log 14's; that the amount is below 2^63, and that nothing but a read or a service
advances them, is the model's choice, DESIGN CHOICE of log 13, where R390 asks only that reads do not decrease; the step
of the draw counter is the model's own, log 28). -/
def Obligations.CounterReads : Prop :=
  ∀ (s : State) (rd : Reg), s.cfg.ext.counters = true →
    let forms := fun (csr : BitVec 12) (done : Host.Outcome State Fault Refusal → Prop) =>
      ((Instr.csrrs rd 0#5 csr).wellFormed s.cfg = true → done (exec (.csrrs rd 0#5 csr) s)) ∧
      ((Instr.csrrc rd 0#5 csr).wellFormed s.cfg = true → done (exec (.csrrc rd 0#5 csr) s)) ∧
      ((Instr.csrrsi rd 0#5 csr).wellFormed s.cfg = true → done (exec (.csrrsi rd 0#5 csr) s)) ∧
      ((Instr.csrrci rd 0#5 csr).wellFormed s.cfg = true → done (exec (.csrrci rd 0#5 csr) s))
    let high := fun v : BitVec 64 => (v.extractLsb' 32 32).setWidth 64
    forms 0xC02#12 (fun o => o = .next (s.afterX rd s.instret 4)) ∧
    forms 0xC00#12 (fun o => ∃ d : BitVec 63, let v := s.cycle + d.setWidth 64
      o = .next { s.afterX rd v 4 with cycle := v, draws := s.draws + 1 }) ∧
    forms 0xC01#12 (fun o => ∃ d : BitVec 63, let v := s.time + d.setWidth 64
      o = .next { s.afterX rd v 4 with time := v, draws := s.draws + 1 }) ∧
    (s.cfg.is32 = true →
      forms 0xC82#12 (fun o => o = .next (s.afterX rd (high s.instret) 4)) ∧
      forms 0xC80#12 (fun o => ∃ d : BitVec 63, let v := s.cycle + d.setWidth 64
        o = .next { s.afterX rd (high v) 4 with cycle := v, draws := s.draws + 1 }) ∧
      forms 0xC81#12 (fun o => ∃ d : BitVec 63, let v := s.time + d.setWidth 64
        o = .next { s.afterX rd (high v) 4 with time := v, draws := s.draws + 1 })) ∧
    (∀ k : Fin 29, k.val + 3 ∈ s.cfg.hpmcounters →
      forms (BitVec.ofNat 12 (0xC00 + (k.val + 3))) (fun o => o = .next (s.afterX rd s.hpm[k] 4)) ∧
      (s.cfg.is32 = true →
        forms (BitVec.ofNat 12 (0xC80 + (k.val + 3))) (fun o => o = .next (s.afterX rd (high s.hpm[k]) 4))))

/-- Of the 4096 CSR addresses there exist 0x001 to 0x003 with F; with the counters 0xC00 to 0xC02 and those from 0xC03
to 0xC1F whose hpmcounter is implemented; and on XLEN = 32 the same from 0xC80 on. Those from 0xC00 on are read-only. A
CSR instruction raises IllegalInstruction, with no state changed, exactly when its CSR does not exist or it would write
a read-only one (45_zicsr_counters.md R378; 10_state.md R34, R42, R43, R44). -/
def Obligations.CsrInstructionsRaiseIllegal : Prop :=
  ∀ (s : State) (rd rs1 : Reg) (uimm : BitVec 5) (csr : BitVec 12), s.status = .running →
    let n := csr.toNat
    let counter := fun k : Nat => k < 3 ∨ (k < 32 ∧ k ∈ s.cfg.hpmcounters)
    let exist := (s.cfg.ext.f = true ∧ 0x001 ≤ n ∧ n ≤ 0x003) ∨
      (s.cfg.ext.counters = true ∧ 0xC00 ≤ n ∧ counter (n - 0xC00)) ∨
      (s.cfg.ext.counters = true ∧ s.cfg.is32 = true ∧ 0xC80 ≤ n ∧ counter (n - 0xC80))
    let go := fun (i : Instr) (writes : Prop) =>
      i.wellFormed s.cfg = true →
        (¬ exist ∨ (writes ∧ 0xC00 ≤ n) → exec i s = .next (s.trap .illegalInstruction (encode i).bits 4)) ∧
        (exist → ¬ (writes ∧ 0xC00 ≤ n) → ∃ t : State, exec i s = .next t ∧ t.status = .running)
    go (.csrrw rd rs1 csr) True ∧ go (.csrrs rd rs1 csr) (rs1 ≠ 0#5) ∧ go (.csrrc rd rs1 csr) (rs1 ≠ 0#5) ∧
    go (.csrrwi rd uimm csr) True ∧ go (.csrrsi rd uimm csr) (uimm ≠ 0#5) ∧ go (.csrrci rd uimm csr) (uimm ≠ 0#5)

/-! ### Floating point -/

/-- FADD, FSUB, FMUL, FDIV and FSQRT in the three formats, in a rounding mode that is not reserved: the result, boxed,
and its flags. On operands that are no NaN: the exact result rounded once; the invalid cases give the canonical NaN and
NV, a finite number divided by zero an infinity and DZ; the infinities, and the signs of the zeros (46_f.md R403, R405,
R408, R413 to R418; 47_d.md R461 to R465; 48_q.md R498 to R502; IEEE 754 is general knowledge in the spec, log 24). -/
def Obligations.FloatArithmeticResults : Prop :=
  (∀ (s : State) (rd rs1 rs2 : Reg) (rm : BitVec 3) (m : Rounding), s.rounding rm = some m →
    let go := fun (i : Instr) (F : Fmt) (r : BitVec F.width × FFlags) =>
      i.wellFormed s.cfg = true → exec i s = .next ((s.afterF rd (box s.cfg F r.1) 4).withFlags r.2)
    let on := fun (F : Fmt) (add sub mul div sqrt : Instr) =>
      let a := s.readFp F rs1
      let b := s.readFp F rs2
      go add F (F.add m a b) ∧ go sub F (F.add m a (F.negate b)) ∧ go mul F (F.mul m a b) ∧
        go div F (F.div m a b) ∧ go sqrt F (F.sqrt m a)
    on .s (.faddS rd rs1 rs2 rm) (.fsubS rd rs1 rs2 rm) (.fmulS rd rs1 rs2 rm) (.fdivS rd rs1 rs2 rm)
      (.fsqrtS rd rs1 rm) ∧
    on .d (.faddD rd rs1 rs2 rm) (.fsubD rd rs1 rs2 rm) (.fmulD rd rs1 rs2 rm) (.fdivD rd rs1 rs2 rm)
      (.fsqrtD rd rs1 rm) ∧
    on .q (.faddQ rd rs1 rs2 rm) (.fsubQ rd rs1 rs2 rm) (.fmulQ rd rs1 rs2 rm) (.fdivQ rd rs1 rs2 rm)
      (.fsqrtQ rd rs1 rm)) ∧
  (∀ (F : Fmt) (m : Rounding) (a b : BitVec F.width),
    let va := F.value a
    let vb := F.value b
    let x := va.toRat
    let y := vb.toRat
    let sign := va.neg != vb.neg
    (va.isNaN = false → vb.isNaN = false →
      (va.isInfinite = true → vb.isInfinite = true →
        F.add m a b = (if va.neg = vb.neg then (a, flagNone) else (F.cNaN, flagNV)) ∧
        F.mul m a b = (F.infinity sign, flagNone) ∧ F.div m a b = (F.cNaN, flagNV)) ∧
      (va.isInfinite = true → vb.isFinite = true →
        F.add m a b = (a, flagNone) ∧ F.div m a b = (F.infinity sign, flagNone) ∧
        F.mul m a b = (if vb.isZero then (F.cNaN, flagNV) else (F.infinity sign, flagNone))) ∧
      (va.isFinite = true → vb.isInfinite = true →
        F.add m a b = (b, flagNone) ∧ F.div m a b = (F.zero sign, flagNone) ∧
        F.mul m a b = (if va.isZero then (F.cNaN, flagNV) else (F.infinity sign, flagNone))) ∧
      (va.isFinite = true → vb.isFinite = true →
        (x + y ≠ 0 → F.RoundsTo m (x + y) (F.add m a b)) ∧
        (x + y = 0 → F.add m a b = (F.zero (if va.neg = vb.neg then va.neg else m == .rdn), flagNone)) ∧
        (x * y ≠ 0 → F.RoundsTo m (x * y) (F.mul m a b)) ∧
        (x * y = 0 → F.mul m a b = (F.zero sign, flagNone)) ∧
        (va.isZero = true → vb.isZero = true → F.div m a b = (F.cNaN, flagNV)) ∧
        (va.isZero = false → vb.isZero = true → F.div m a b = (F.infinity sign, flagDZ)) ∧
        (va.isZero = true → vb.isZero = false → F.div m a b = (F.zero sign, flagNone)) ∧
        (va.isZero = false → vb.isZero = false → F.RoundsTo m (x / y) (F.div m a b)))) ∧
    (va.isNaN = false →
      (va.isZero = true → F.sqrt m a = (a, flagNone)) ∧
      (va.isZero = false → va.neg = true → F.sqrt m a = (F.cNaN, flagNV)) ∧
      (va.isInfinite = true → va.neg = false → F.sqrt m a = (a, flagNone)) ∧
      (va.isFinite = true → va.isZero = false → va.neg = false → F.RoundsToRoot m x (F.sqrt m a))))

/-- The fused multiply-adds in the three formats: (a*b)+c, (a*b)-c, -(a*b)+c, -(a*b)-c. On operands that are no NaN: the
exact result rounded once; the invalid cases give the canonical NaN and NV; the infinities, and the signs of the zeros.
Negation inverts the sign bit (46_f.md R402, R405, R419 to R423; 47_d.md R457 to R460; 48_q.md R494 to R497; log 24). -/
def Obligations.FusedResults : Prop :=
  (∀ (s : State) (rd rs1 rs2 rs3 : Reg) (rm : BitVec 3) (m : Rounding), s.rounding rm = some m →
    let go := fun (i : Instr) (F : Fmt) (r : BitVec F.width × FFlags) =>
      i.wellFormed s.cfg = true → exec i s = .next ((s.afterF rd (box s.cfg F r.1) 4).withFlags r.2)
    let on := fun (F : Fmt) (madd msub nmsub nmadd : Instr) =>
      let a := s.readFp F rs1
      let b := s.readFp F rs2
      let c := s.readFp F rs3
      go madd F (F.fma m a b c) ∧ go msub F (F.fma m a b (F.negate c)) ∧ go nmsub F (F.fma m (F.negate a) b c) ∧
        go nmadd F (F.fma m (F.negate a) b (F.negate c))
    on .s (.fmaddS rd rs1 rs2 rs3 rm) (.fmsubS rd rs1 rs2 rs3 rm) (.fnmsubS rd rs1 rs2 rs3 rm)
      (.fnmaddS rd rs1 rs2 rs3 rm) ∧
    on .d (.fmaddD rd rs1 rs2 rs3 rm) (.fmsubD rd rs1 rs2 rs3 rm) (.fnmsubD rd rs1 rs2 rs3 rm)
      (.fnmaddD rd rs1 rs2 rs3 rm) ∧
    on .q (.fmaddQ rd rs1 rs2 rs3 rm) (.fmsubQ rd rs1 rs2 rs3 rm) (.fnmsubQ rd rs1 rs2 rs3 rm)
      (.fnmaddQ rd rs1 rs2 rs3 rm)) ∧
  (∀ (F : Fmt) (m : Rounding) (a b c : BitVec F.width),
    let va := F.value a
    let vb := F.value b
    let vc := F.value c
    let x := va.toRat * vb.toRat + vc.toRat
    let sign := va.neg != vb.neg
    let infinite := va.isInfinite || vb.isInfinite
    ((F.negate a).msb = !a.msb ∧ ∀ k < F.width - 1, (F.negate a).getLsbD k = a.getLsbD k) ∧
    (va.isNaN = false → vb.isNaN = false → vc.isNaN = false →
      (infinite = true → va.isZero || vb.isZero → F.fma m a b c = (F.cNaN, flagNV)) ∧
      (infinite = true → va.isZero = false → vb.isZero = false →
        F.fma m a b c =
          if vc.isInfinite = true ∧ vc.neg ≠ sign then (F.cNaN, flagNV) else (F.infinity sign, flagNone)) ∧
      (infinite = false → vc.isInfinite = true → F.fma m a b c = (c, flagNone)) ∧
      (infinite = false → vc.isFinite = true →
        (x ≠ 0 → F.RoundsTo m x (F.fma m a b c)) ∧
        (x = 0 → F.fma m a b c = (F.zero (if sign = vc.neg then sign else m == .rdn), flagNone)))))

/-- FSGNJ, FSGNJN and FSGNJX keep every bit of the first operand but the sign and change no flag (46_f.md R424 to R426;
47_d.md R466 to R468; 48_q.md R503 to R505). -/
def Obligations.SignInjectionResults : Prop :=
  ∀ (s : State) (rd rs1 rs2 : Reg),
    let go := fun (i : Instr) (F : Fmt) (sign : Bool → Bool → Bool) =>
      i.wellFormed s.cfg = true → ∃ v : BitVec F.width,
        exec i s = .next (s.afterF rd (box s.cfg F v) 4) ∧
        v.msb = sign (s.readFp F rs1).msb (s.readFp F rs2).msb ∧
        ∀ k < F.width - 1, v.getLsbD k = (s.readFp F rs1).getLsbD k
    go (.fsgnjS rd rs1 rs2) .s (fun _ y => y) ∧ go (.fsgnjnS rd rs1 rs2) .s (fun _ y => !y) ∧
    go (.fsgnjxS rd rs1 rs2) .s (fun x y => xor x y) ∧
    go (.fsgnjD rd rs1 rs2) .d (fun _ y => y) ∧ go (.fsgnjnD rd rs1 rs2) .d (fun _ y => !y) ∧
    go (.fsgnjxD rd rs1 rs2) .d (fun x y => xor x y) ∧
    go (.fsgnjQ rd rs1 rs2) .q (fun _ y => y) ∧ go (.fsgnjnQ rd rs1 rs2) .q (fun _ y => !y) ∧
    go (.fsgnjxQ rd rs1 rs2) .q (fun x y => xor x y)

/-- FMIN and FMAX: with one NaN the other operand, with two the canonical NaN, else the smaller or larger, by sign and
magnitude of the patterns, with -0 below +0; NV exactly for a signaling NaN (46_f.md R427, R428; 47_d.md R469, R470;
48_q.md R506, R507; that -0 lies below +0 is general knowledge in the spec, R427, PRESUMED in logs 24, 30). -/
def Obligations.MinMaxResults : Prop :=
  ∀ (s : State) (rd rs1 rs2 : Reg),
    let go := fun (i : Instr) (F : Fmt) (largest : Bool) =>
      let a := s.readFp F rs1
      let b := s.readFp F rs2
      let va := F.value a
      let vb := F.value b
      let below := signedMagnitude a < signedMagnitude b ∨
        (signedMagnitude a = signedMagnitude b ∧ a.msb = true ∧ b.msb = false)
      let fl := if va.isSignaling || vb.isSignaling then flagNV else flagNone
      let put := fun v : BitVec F.width => exec i s = .next ((s.afterF rd (box s.cfg F v) 4).withFlags fl)
      i.wellFormed s.cfg = true →
        (va.isNaN = true → vb.isNaN = true → put F.cNaN) ∧
        (va.isNaN = true → vb.isNaN = false → put b) ∧
        (va.isNaN = false → vb.isNaN = true → put a) ∧
        (va.isNaN = false → vb.isNaN = false →
          (below → put (if largest then b else a)) ∧ (¬ below → put (if largest then a else b)))
    go (.fminS rd rs1 rs2) .s false ∧ go (.fmaxS rd rs1 rs2) .s true ∧
    go (.fminD rd rs1 rs2) .d false ∧ go (.fmaxD rd rs1 rs2) .d true ∧
    go (.fminQ rd rs1 rs2) .q false ∧ go (.fmaxQ rd rs1 rs2) .q true

/-- The comparisons write 1 or 0 to `x[rd]`; with a NaN they write 0, and NV is raised by FLT and FLE for any NaN and by
FEQ for a signaling one; else they compare sign and magnitude of the patterns, with -0 equal to +0, which is the order
of the values (46_f.md R402, R441 to R444; 47_d.md R474 to R476; 48_q.md R512 to R514; that -0 equals +0, and the order
of the infinities, is general knowledge in the spec, R441, PRESUMED in log 24). -/
def Obligations.CompareResults : Prop :=
  (∀ (s : State) (rd rs1 rs2 : Reg),
    let on := fun (F : Fmt) (feq flt fle : Instr) =>
      let a := s.readFp F rs1
      let b := s.readFp F rs2
      let va := F.value a
      let vb := F.value b
      let nan := va.isNaN || vb.isNaN
      let put := fun (i : Instr) (b : Bool) (fl : FFlags) =>
        i.wellFormed s.cfg = true →
          exec i s = .next ((s.afterX rd (if b then 1#64 else 0#64) 4).withFlags fl)
      (nan = true →
        put feq false (if va.isSignaling || vb.isSignaling then flagNV else flagNone) ∧
        put flt false flagNV ∧ put fle false flagNV) ∧
      (nan = false →
        put feq (decide (signedMagnitude a = signedMagnitude b)) flagNone ∧
        put flt (decide (signedMagnitude a < signedMagnitude b)) flagNone ∧
        put fle (decide (signedMagnitude a ≤ signedMagnitude b)) flagNone)
    on .s (.feqS rd rs1 rs2) (.fltS rd rs1 rs2) (.fleS rd rs1 rs2) ∧
    on .d (.feqD rd rs1 rs2) (.fltD rd rs1 rs2) (.fleD rd rs1 rs2) ∧
    on .q (.feqQ rd rs1 rs2) (.fltQ rd rs1 rs2) (.fleQ rd rs1 rs2)) ∧
  (∀ (F : Fmt) (a b : BitVec F.width), (F.value a).isFinite = true → (F.value b).isFinite = true →
    ((F.value a).toRat < (F.value b).toRat ↔ signedMagnitude a < signedMagnitude b))

/-- FCLASS sets exactly the bit of the operand's class, read off its sign, exponent and fraction fields, and changes no
flag (46_f.md R402, R445; 47_d.md R477; 48_q.md R515; bits 0, 3, 4 and 7 are lost cells of the table, derived in R445
and PRESUMED in log 30). -/
def Obligations.ClassifyResults : Prop :=
  ∀ (s : State) (rd rs1 : Reg),
    let go := fun (i : Instr) (F : Fmt) =>
      let b := s.readFp F rs1
      let e := b.toNat / 2 ^ F.fracBits % 2 ^ F.expBits
      let t := b.toNat % 2 ^ F.fracBits
      let top := 2 ^ F.expBits - 1
      let put := fun bit : Nat => exec i s = .next (s.afterX rd (BitVec.ofNat 64 (2 ^ bit)) 4)
      i.wellFormed s.cfg = true →
        (e = top → t = 0 → put (if b.msb then 0 else 7)) ∧
        (e = top → t ≠ 0 → put (if t < 2 ^ (F.fracBits - 1) then 8 else 9)) ∧
        (e = 0 → t = 0 → put (if b.msb then 3 else 4)) ∧
        (e = 0 → t ≠ 0 → put (if b.msb then 2 else 5)) ∧
        (e ≠ 0 → e ≠ top → put (if b.msb then 1 else 6))
    go (.fclassS rd rs1) .s ∧ go (.fclassD rd rs1) .d ∧ go (.fclassQ rd rs1) .q

/-- The conversions in a rounding mode that is not reserved: to an integer, sign-extended also when unsigned; from the
low bits of an integer register; between formats. To an integer: the rounded integer, with NX where it is not the
operand; out of range the nearest bound, and for a NaN the upper one, with NV alone. From an integer, and between
formats: the number rounded once, zeros, infinities and signs kept; to a wider format exactly (46_f.md R405, R429 to
R438; 47_d.md R471 to R473, R478 to R483, R485, R486; 48_q.md R508 to R511, R516 to R523; logs 24, 30). -/
def Obligations.ConversionResults : Prop :=
  (∀ (s : State) (rd rs1 : Reg) (rm : BitVec 3) (m : Rounding), s.rounding rm = some m →
    let toX := fun (i : Instr) (F : Fmt) (n : Nat) (sgn : Bool) =>
      let r := F.toInt m n sgn (s.readFp F rs1)
      i.wellFormed s.cfg = true → exec i s = .next ((s.afterX rd (r.1.signExtend 64) 4).withFlags r.2)
    let ofX := fun (i : Instr) (F : Fmt) (v : Int) =>
      let r := F.ofInt m v
      i.wellFormed s.cfg = true → exec i s = .next ((s.afterF rd (box s.cfg F r.1) 4).withFlags r.2)
    let toF := fun (i : Instr) (F G : Fmt) =>
      let r := F.ofFormat G m (s.readFp G rs1)
      i.wellFormed s.cfg = true → exec i s = .next ((s.afterF rd (box s.cfg F r.1) 4).withFlags r.2)
    let w := s.intW rs1
    let wu := (s.natW rs1 : Int)
    let l := s.intX rs1
    let lu := (s.natX rs1 : Int)
    toX (.fcvtWS rd rs1 rm) .s 32 true ∧ toX (.fcvtWUS rd rs1 rm) .s 32 false ∧
    toX (.fcvtLS rd rs1 rm) .s 64 true ∧ toX (.fcvtLUS rd rs1 rm) .s 64 false ∧
    toX (.fcvtWD rd rs1 rm) .d 32 true ∧ toX (.fcvtWUD rd rs1 rm) .d 32 false ∧
    toX (.fcvtLD rd rs1 rm) .d 64 true ∧ toX (.fcvtLUD rd rs1 rm) .d 64 false ∧
    toX (.fcvtWQ rd rs1 rm) .q 32 true ∧ toX (.fcvtWUQ rd rs1 rm) .q 32 false ∧
    toX (.fcvtLQ rd rs1 rm) .q 64 true ∧ toX (.fcvtLUQ rd rs1 rm) .q 64 false ∧
    ofX (.fcvtSW rd rs1 rm) .s w ∧ ofX (.fcvtSWU rd rs1 rm) .s wu ∧
    ofX (.fcvtSL rd rs1 rm) .s l ∧ ofX (.fcvtSLU rd rs1 rm) .s lu ∧
    ofX (.fcvtDW rd rs1 rm) .d w ∧ ofX (.fcvtDWU rd rs1 rm) .d wu ∧
    ofX (.fcvtDL rd rs1 rm) .d l ∧ ofX (.fcvtDLU rd rs1 rm) .d lu ∧
    ofX (.fcvtQW rd rs1 rm) .q w ∧ ofX (.fcvtQWU rd rs1 rm) .q wu ∧
    ofX (.fcvtQL rd rs1 rm) .q l ∧ ofX (.fcvtQLU rd rs1 rm) .q lu ∧
    toF (.fcvtSD rd rs1 rm) .s .d ∧ toF (.fcvtDS rd rs1 rm) .d .s ∧ toF (.fcvtSQ rd rs1 rm) .s .q ∧
    toF (.fcvtQS rd rs1 rm) .q .s ∧ toF (.fcvtDQ rd rs1 rm) .d .q ∧ toF (.fcvtQD rd rs1 rm) .q .d) ∧
  (∀ (F : Fmt) (m : Rounding) (a : BitVec F.width) (n : Nat) (sgn : Bool), 0 < n →
    let v := F.value a
    let lo : Int := if sgn then -2 ^ (n - 1) else 0
    let hi : Int := if sgn then 2 ^ (n - 1) - 1 else 2 ^ n - 1
    (v.isNaN = true → F.toInt m n sgn a = (BitVec.ofInt n hi, flagNV)) ∧
    (v.isInfinite = true → F.toInt m n sgn a = (BitVec.ofInt n (if v.neg then lo else hi), flagNV)) ∧
    (v.isFinite = true → ∃ i : Int, m.IsInteger v.toRat i ∧
      (i < lo → F.toInt m n sgn a = (BitVec.ofInt n lo, flagNV)) ∧
      (hi < i → F.toInt m n sgn a = (BitVec.ofInt n hi, flagNV)) ∧
      (lo ≤ i → i ≤ hi →
        F.toInt m n sgn a = (BitVec.ofInt n i, if (i : ℚ) = v.toRat then flagNone else flagNX)))) ∧
  (∀ (F : Fmt) (m : Rounding) (v : Int),
    (v = 0 → F.ofInt m v = (F.zero false, flagNone)) ∧ (v ≠ 0 → F.RoundsTo m v (F.ofInt m v))) ∧
  (∀ (F G : Fmt) (m : Rounding) (a : BitVec G.width),
    let v := G.value a
    let r := F.ofFormat G m a
    (v.isInfinite = true → r = (F.infinity v.neg, flagNone)) ∧
    (v.isZero = true → r = (F.zero v.neg, flagNone)) ∧
    (v.isFinite = true → v.isZero = false → F.RoundsTo m v.toRat r) ∧
    (v.isFinite = true → G.width ≤ F.width →
      (F.value r.1).isFinite = true ∧ (F.value r.1).toRat = v.toRat ∧ (F.value r.1).neg = v.neg ∧ r.2 = flagNone))

/-- The moves between the register files transfer bits: the low bits sign-extended to `x[rd]`, the low bits of `x[rs1]`
boxed to `f[rd]`, no flag (46_f.md R439, R440; 47_d.md R453, R484, R487). -/
def Obligations.MoveResults : Prop :=
  ∀ (s : State) (rd rs1 : Reg),
    let ok := fun i : Instr => i.wellFormed s.cfg = true
    (ok (.fmvXW rd rs1) →
      exec (.fmvXW rd rs1) s = .next (s.afterX rd (((s.readF rs1).setWidth 32).signExtend 64) 4)) ∧
    (ok (.fmvXD rd rs1) → exec (.fmvXD rd rs1) s = .next (s.afterX rd ((s.readF rs1).setWidth 64) 4)) ∧
    (ok (.fmvWX rd rs1) →
      exec (.fmvWX rd rs1) s = .next (s.afterF rd (box s.cfg .s ((s.readX rs1).setWidth 32)) 4)) ∧
    (ok (.fmvDX rd rs1) → exec (.fmvDX rd rs1) s = .next (s.afterF rd (box s.cfg .d (s.readX rs1)) 4))

/-- The effective rounding mode: 000 to 100 are RNE, RTZ, RDN, RUP and RMM, and 111 takes `frm`, in the same code. An
instruction with an `rm` field whose effective mode is reserved (101 or 110, or 111 while `frm` holds 101, 110 or 111)
raises IllegalInstruction, also where the result could not depend on the mode (10_state.md R36; 46_f.md R403, R404). -/
def Obligations.ReservedRoundingRaisesIllegal : Prop :=
  (∀ (s : State) (rm frm : BitVec 3), frm = s.fcsr.extractLsb' 5 3 →
    let named := fun m : BitVec 3 =>
      if m = 0b000#3 then some Rounding.rne else if m = 0b001#3 then some .rtz else if m = 0b010#3 then some .rdn
      else if m = 0b011#3 then some .rup else if m = 0b100#3 then some .rmm else none
    (rm ≠ 0b111#3 → s.rounding rm = named rm) ∧ (rm = 0b111#3 → s.rounding rm = named frm)) ∧
  (∀ (s : State) (rd rs1 rs2 rs3 : Reg) (rm : BitVec 3),
    (rm = 0b101#3 ∨ rm = 0b110#3 ∨ (rm = 0b111#3 ∧ 5 ≤ (s.fcsr.extractLsb' 5 3).toNat)) →
    ∀ i : Instr, (i ∈ ([.faddS rd rs1 rs2 rm, .fsubS rd rs1 rs2 rm, .fmulS rd rs1 rs2 rm, .fdivS rd rs1 rs2 rm,
        .fsqrtS rd rs1 rm, .fmaddS rd rs1 rs2 rs3 rm, .fmsubS rd rs1 rs2 rs3 rm, .fnmsubS rd rs1 rs2 rs3 rm,
        .fnmaddS rd rs1 rs2 rs3 rm, .fcvtWS rd rs1 rm, .fcvtWUS rd rs1 rm, .fcvtLS rd rs1 rm, .fcvtLUS rd rs1 rm,
        .fcvtSW rd rs1 rm, .fcvtSWU rd rs1 rm, .fcvtSL rd rs1 rm, .fcvtSLU rd rs1 rm] : List Instr) ∨
      i ∈ ([.faddD rd rs1 rs2 rm, .fsubD rd rs1 rs2 rm, .fmulD rd rs1 rs2 rm, .fdivD rd rs1 rs2 rm,
        .fsqrtD rd rs1 rm, .fmaddD rd rs1 rs2 rs3 rm, .fmsubD rd rs1 rs2 rs3 rm, .fnmsubD rd rs1 rs2 rs3 rm,
        .fnmaddD rd rs1 rs2 rs3 rm, .fcvtWD rd rs1 rm, .fcvtWUD rd rs1 rm, .fcvtLD rd rs1 rm, .fcvtLUD rd rs1 rm,
        .fcvtDW rd rs1 rm, .fcvtDWU rd rs1 rm, .fcvtDL rd rs1 rm, .fcvtDLU rd rs1 rm, .fcvtSD rd rs1 rm,
        .fcvtDS rd rs1 rm] : List Instr) ∨
      i ∈ ([.faddQ rd rs1 rs2 rm, .fsubQ rd rs1 rs2 rm, .fmulQ rd rs1 rs2 rm, .fdivQ rd rs1 rs2 rm,
        .fsqrtQ rd rs1 rm, .fmaddQ rd rs1 rs2 rs3 rm, .fmsubQ rd rs1 rs2 rs3 rm, .fnmsubQ rd rs1 rs2 rs3 rm,
        .fnmaddQ rd rs1 rs2 rs3 rm, .fcvtWQ rd rs1 rm, .fcvtWUQ rd rs1 rm, .fcvtLQ rd rs1 rm, .fcvtLUQ rd rs1 rm,
        .fcvtQW rd rs1 rm, .fcvtQWU rd rs1 rm, .fcvtQL rd rs1 rm, .fcvtQLU rd rs1 rm, .fcvtSQ rd rs1 rm,
        .fcvtQS rd rs1 rm, .fcvtDQ rd rs1 rm, .fcvtQD rd rs1 rm] : List Instr)) →
      exec i s = .next (s.trap .illegalInstruction (encode i).bits 4))

/-- The accrued flags are sticky: an instruction other than the six CSR instructions clears no bit of `fflags` and does
not change `frm` (10_state.md R28, R37; 46_f.md R408). -/
def Obligations.AccruedFlagsAreSticky : Prop :=
  ∀ (i : Instr) (s t : State), (i.footprint s).counters = false → exec i s = .next t →
    t.fflags &&& s.fflags = s.fflags ∧ t.frm = s.frm

/-- Boxing: a value written in a format reads back in it; read in a narrower format it is the low bits where all bits
above them up to FLEN are ones, and else the canonical NaN; a transfer takes the low bits in any case (47_d.md R451 to
R453). -/
def Obligations.BoxedValuesReadBack : Prop :=
  ∀ (s : State) (F G : Fmt) (rd : Reg) (v : BitVec F.width), F.width ≤ s.cfg.flen → G.width ≤ s.cfg.flen →
    (s.writeFp F rd v).readFp F rd = v ∧
    (s.writeFp F rd v).rawFp F rd = v ∧
    ((∀ k < s.cfg.flen, G.width ≤ k → (s.readF rd).getLsbD k = true) →
      s.readFp G rd = (s.readF rd).setWidth G.width) ∧
    ((∃ k < s.cfg.flen, G.width ≤ k ∧ (s.readF rd).getLsbD k = false) → s.readFp G rd = G.cNaN)

/-- Rounding to a grid: an exact multiple is kept; else the result is one of the two neighbours, the one the mode asks
for: nearest with ties to even or away, towards zero, down, up. Rounding to a format: with the number rounded to the
precision of the format, beyond the largest finite number the result is an infinity or that number, as mode and sign
ask, with OF and NX; from 2^emin up it is the rounded number, with NX where that is inexact; below, the number rounded
to the grid of the subnormals, with UF and NX where that is inexact; the sign is kept (46_f.md R402, R405, R409; general
knowledge in the spec, log 24). -/
def Obligations.RoundingPicksTheRightNeighbour : Prop :=
  (∀ (rm : Rounding) (neg : Bool) (m d : Nat) (e : Int), 0 < d →
    let step := 2 ^ d
    let k := (roundToGrid rm neg m e (e + d)).1
    let inexact := (roundToGrid rm neg m e (e + d)).2
    (inexact = false ↔ m % step = 0) ∧
    (m % step = 0 → k = m / step) ∧
    (m % step ≠ 0 → (k = m / step ∨ k = m / step + 1) ∧
      (rm = .rtz → k = m / step) ∧
      (rm = .rdn → (k = m / step + 1 ↔ neg = true)) ∧
      (rm = .rup → (k = m / step + 1 ↔ neg = false)) ∧
      (rm = .rne ∨ rm = .rmm → 2 * (m % step) < step → k = m / step) ∧
      (rm = .rne ∨ rm = .rmm → step < 2 * (m % step) → k = m / step + 1) ∧
      (rm = .rne → 2 * (m % step) = step → k % 2 = 0) ∧
      (rm = .rmm → 2 * (m % step) = step → k = m / step + 1))) ∧
  (∀ (rm : Rounding) (neg : Bool) (m d : Nat) (e : Int),
    roundToGrid rm neg m (e + d) e = (m * 2 ^ d, false)) ∧
  (∀ (F : Fmt) (rm : Rounding) (neg : Bool) (m : Nat) (e : Int), 0 < m →
    let r := F.round rm neg m e
    let v := F.value r.1
    let g : Int := e + m.log2 - F.fracBits
    let ru := roundToGrid rm neg m e g
    let ruNum : ℚ := ru.1 * 2 ^ g
    let g2 : Int := 1 - F.bias - F.fracBits
    let rd := roundToGrid rm neg m e g2
    let outward := rm = .rne ∨ rm = .rmm ∨ (rm = .rup ∧ neg = false) ∨ (rm = .rdn ∧ neg = true)
    let sign : ℚ := if neg then -1 else 1
    let top : ℚ := 2 ^ ((F.bias : Int) + 1)
    let emin : ℚ := 2 ^ (1 - (F.bias : Int))
    (top ≤ ruNum → r.2 = flagOF ||| flagNX ∧ (outward → v = .infinite neg) ∧
      (¬ outward → v = .normal neg (2 ^ (F.fracBits + 1) - 1) (F.bias - F.fracBits))) ∧
    (ruNum < top → v.isFinite = true ∧ v.neg = neg ∧
      (emin ≤ ruNum → v.toRat = sign * ruNum ∧ r.2 = if ru.2 then flagNX else flagNone) ∧
      (ruNum < emin → v.toRat = sign * (rd.1 * 2 ^ g2) ∧
        r.2 = if rd.2 then flagUF ||| flagNX else flagNone)))

/-- Every finite non-zero value of a format, read off the fields of its pattern, rounds to itself in every mode and
raises no flag; the patterns of the infinities and zeros are those that stand for them (46_f.md R401, R402, R405, R409;
log 24). -/
def Obligations.RepresentableValuesRoundToThemselves : Prop :=
  (∀ (F : Fmt) (rm : Rounding) (b : BitVec F.width) (neg : Bool) (m : Nat) (e : Int),
    F.value b = .normal neg m e ∨ F.value b = .subnormal neg m e → F.round rm neg m e = (b, flagNone)) ∧
  (∀ (F : Fmt) (b : BitVec F.width) (neg : Bool) (m : Nat) (e : Int),
    let ef := b.toNat / 2 ^ F.fracBits % 2 ^ F.expBits
    let t := b.toNat % 2 ^ F.fracBits
    (F.value b = .normal neg m e →
      neg = b.msb ∧ m = 2 ^ F.fracBits + t ∧ e = (ef : Int) - F.bias - F.fracBits ∧ 0 < ef) ∧
    (F.value b = .subnormal neg m e → neg = b.msb ∧ m = t ∧ e = 1 - (F.bias : Int) - F.fracBits ∧ ef = 0)) ∧
  (∀ (F : Fmt) (neg : Bool), F.value (F.infinity neg) = .infinite neg ∧ F.value (F.zero neg) = .zero neg)

/-- An arithmetic operation with a NaN operand answers the canonical NaN, and raises NV exactly when an operand is
signaling or, for the fused form, when an infinity is multiplied by a zero; the canonical NaN is positive and has of its
fraction the top bit alone (46_f.md R401, R406, R413, R419; log 24). -/
def Obligations.NaNOperandsGiveCanonicalNaN : Prop :=
  (Fmt.cNaN .s = 0x7FC00000#32 ∧ Fmt.cNaN .d = 0x7FF8000000000000#64 ∧
    Fmt.cNaN .q = 0x7FFF8000000000000000000000000000#128) ∧
  ∀ (F : Fmt) (rm : Rounding) (a b c : BitVec F.width),
    let va := F.value a
    let vb := F.value b
    let vc := F.value c
    let nv := fun x : Bool => if x then flagNV else flagNone
    let s2 := va.isSignaling || vb.isSignaling
    (va.isNaN = true ∨ vb.isNaN = true →
      F.add rm a b = (F.cNaN, nv s2) ∧ F.sub rm a b = (F.cNaN, nv s2) ∧ F.mul rm a b = (F.cNaN, nv s2) ∧
        F.div rm a b = (F.cNaN, nv s2)) ∧
    (va.isNaN = true → F.sqrt rm a = (F.cNaN, nv va.isSignaling)) ∧
    (va.isNaN = true ∨ vb.isNaN = true ∨ vc.isNaN = true →
      F.fma rm a b c = (F.cNaN, nv (s2 || vc.isSignaling || (va.isInfinite && vb.isZero) ||
        (va.isZero && vb.isInfinite)))) ∧
    (∀ G : Fmt, va.isNaN = true → G.ofFormat F rm a = (G.cNaN, nv va.isSignaling))

/-! ### Frames -/

/-- A completing instruction changes no integer register but its destination, no floating-point register but its
destination, and `fcsr` only if it is a CSR instruction or one that accrues flags; x0 reads zero before and after
(10_state.md R21, R32). -/
def Obligations.RegisterFrame : Prop :=
  ∀ (i : Instr) (s t : State), s.status = .running → exec i s = .next t → t.status = .running →
    (∀ r : Reg, (i.footprint s).x ≠ some r → t.readX r = s.readX r) ∧ t.readX 0#5 = 0#64 ∧
    (∀ r : Reg, (i.footprint s).f ≠ some r → t.readF r = s.readF r) ∧
    ((i.footprint s).fcsr = false → t.fcsr = s.fcsr)

/-- A completing instruction leaves every byte of memory outside the bytes it may store to, the configuration and the
hpmcounters; the reservation unless it is an LR or SC; `cycle` and `time` unless it is a CSR instruction; the output
trace unless it may store; the fetch candidates unless it may store or is FENCE.I (20_memory.md R65; 44_a.md R337;
10_state.md R46; that of all instructions only a read advances `cycle` and `time` is the model's choice, DESIGN CHOICE
of log 13, and that the hpmcounters keep their values is log 14's). -/
def Obligations.MemoryAndStateFrame : Prop :=
  ∀ (i : Instr) (s t : State), s.status = .running → exec i s = .next t → t.status = .running →
    let p := i.footprint s
    let stored := p.storedBytes s.cfg
    (∀ a : Nat, a ∉ stored → Memory.read t.memory a = Memory.read s.memory a) ∧
    (stored = [] → t.memory = s.memory ∧ t.ioTrace = s.ioTrace) ∧
    (stored = [] → p.candidates = false → t.stale = s.stale) ∧
    (p.reservation = false → t.reservation = s.reservation) ∧
    (p.counters = false → t.cycle = s.cycle ∧ t.time = s.time) ∧
    t.cfg = s.cfg ∧ t.hpm = s.hpm ∧ t.instret = s.instret + 1 ∧ t.loop = s.loop ∧ t.launched = s.launched

end Statements
end

