-- ==== Sys2Proof/Laws/State.lean ====
section
/-! SUPPORT. What each update of the state leaves in each field, so that no proof unfolds a record update. -/

namespace Sys2Proof.Machine

variable (s : State)

/-! ### `writeX` -/

@[simp] theorem State.writeX_cfg (r : Reg) (v : Word) : (s.writeX r v).cfg = s.cfg := by
  simp only [State.writeX]; split <;> rfl

@[simp] theorem State.writeX_pc (r : Reg) (v : Word) : (s.writeX r v).pc = s.pc := by
  simp only [State.writeX]; split <;> rfl

@[simp] theorem State.writeX_f (r : Reg) (v : Word) : (s.writeX r v).f = s.f := by
  simp only [State.writeX]; split <;> rfl

@[simp] theorem State.writeX_fcsr (r : Reg) (v : Word) : (s.writeX r v).fcsr = s.fcsr := by
  simp only [State.writeX]; split <;> rfl

@[simp] theorem State.writeX_cycle (r : Reg) (v : Word) : (s.writeX r v).cycle = s.cycle := by
  simp only [State.writeX]; split <;> rfl

@[simp] theorem State.writeX_time (r : Reg) (v : Word) : (s.writeX r v).time = s.time := by
  simp only [State.writeX]; split <;> rfl

@[simp] theorem State.writeX_instret (r : Reg) (v : Word) : (s.writeX r v).instret = s.instret := by
  simp only [State.writeX]; split <;> rfl

@[simp] theorem State.writeX_hpm (r : Reg) (v : Word) : (s.writeX r v).hpm = s.hpm := by
  simp only [State.writeX]; split <;> rfl

@[simp] theorem State.writeX_reservation (r : Reg) (v : Word) : (s.writeX r v).reservation = s.reservation := by
  simp only [State.writeX]; split <;> rfl

@[simp] theorem State.writeX_memory (r : Reg) (v : Word) : (s.writeX r v).memory = s.memory := by
  simp only [State.writeX]; split <;> rfl

@[simp] theorem State.writeX_stale (r : Reg) (v : Word) : (s.writeX r v).stale = s.stale := by
  simp only [State.writeX]; split <;> rfl

@[simp] theorem State.writeX_ioTrace (r : Reg) (v : Word) : (s.writeX r v).ioTrace = s.ioTrace := by
  simp only [State.writeX]; split <;> rfl

@[simp] theorem State.writeX_status (r : Reg) (v : Word) : (s.writeX r v).status = s.status := by
  simp only [State.writeX]; split <;> rfl

@[simp] theorem State.writeX_loop (r : Reg) (v : Word) : (s.writeX r v).loop = s.loop := by
  simp only [State.writeX]; split <;> rfl

@[simp] theorem State.writeX_launched (r : Reg) (v : Word) : (s.writeX r v).launched = s.launched := by
  simp only [State.writeX]; split <;> rfl

@[simp] theorem State.writeX_draws (r : Reg) (v : Word) : (s.writeX r v).draws = s.draws := by
  simp only [State.writeX]; split <;> rfl

/-! ### `writeF` -/

@[simp] theorem State.writeF_cfg (r : Reg) (v : FWord) : (s.writeF r v).cfg = s.cfg := rfl

@[simp] theorem State.writeF_x (r : Reg) (v : FWord) : (s.writeF r v).x = s.x := rfl

@[simp] theorem State.writeF_pc (r : Reg) (v : FWord) : (s.writeF r v).pc = s.pc := rfl

@[simp] theorem State.writeF_fcsr (r : Reg) (v : FWord) : (s.writeF r v).fcsr = s.fcsr := rfl

@[simp] theorem State.writeF_cycle (r : Reg) (v : FWord) : (s.writeF r v).cycle = s.cycle := rfl

@[simp] theorem State.writeF_time (r : Reg) (v : FWord) : (s.writeF r v).time = s.time := rfl

@[simp] theorem State.writeF_instret (r : Reg) (v : FWord) : (s.writeF r v).instret = s.instret := rfl

@[simp] theorem State.writeF_hpm (r : Reg) (v : FWord) : (s.writeF r v).hpm = s.hpm := rfl

@[simp] theorem State.writeF_reservation (r : Reg) (v : FWord) : (s.writeF r v).reservation = s.reservation := rfl

@[simp] theorem State.writeF_memory (r : Reg) (v : FWord) : (s.writeF r v).memory = s.memory := rfl

@[simp] theorem State.writeF_stale (r : Reg) (v : FWord) : (s.writeF r v).stale = s.stale := rfl

@[simp] theorem State.writeF_ioTrace (r : Reg) (v : FWord) : (s.writeF r v).ioTrace = s.ioTrace := rfl

@[simp] theorem State.writeF_status (r : Reg) (v : FWord) : (s.writeF r v).status = s.status := rfl

@[simp] theorem State.writeF_loop (r : Reg) (v : FWord) : (s.writeF r v).loop = s.loop := rfl

@[simp] theorem State.writeF_launched (r : Reg) (v : FWord) : (s.writeF r v).launched = s.launched := rfl

@[simp] theorem State.writeF_draws (r : Reg) (v : FWord) : (s.writeF r v).draws = s.draws := rfl

/-! ### `writeFp` -/

@[simp] theorem State.writeFp_cfg (F : Fmt) (r : Reg) (v : BitVec F.width) : (s.writeFp F r v).cfg = s.cfg := rfl

@[simp] theorem State.writeFp_x (F : Fmt) (r : Reg) (v : BitVec F.width) : (s.writeFp F r v).x = s.x := rfl

@[simp] theorem State.writeFp_pc (F : Fmt) (r : Reg) (v : BitVec F.width) : (s.writeFp F r v).pc = s.pc := rfl

@[simp] theorem State.writeFp_fcsr (F : Fmt) (r : Reg) (v : BitVec F.width) : (s.writeFp F r v).fcsr = s.fcsr := rfl

@[simp] theorem State.writeFp_cycle (F : Fmt) (r : Reg) (v : BitVec F.width) : (s.writeFp F r v).cycle = s.cycle := rfl

@[simp] theorem State.writeFp_time (F : Fmt) (r : Reg) (v : BitVec F.width) : (s.writeFp F r v).time = s.time := rfl

@[simp] theorem State.writeFp_instret (F : Fmt) (r : Reg) (v : BitVec F.width) :
    (s.writeFp F r v).instret = s.instret := rfl

@[simp] theorem State.writeFp_hpm (F : Fmt) (r : Reg) (v : BitVec F.width) : (s.writeFp F r v).hpm = s.hpm := rfl

@[simp] theorem State.writeFp_reservation (F : Fmt) (r : Reg) (v : BitVec F.width) :
    (s.writeFp F r v).reservation = s.reservation := rfl

@[simp] theorem State.writeFp_memory (F : Fmt) (r : Reg) (v : BitVec F.width) :
    (s.writeFp F r v).memory = s.memory := rfl

@[simp] theorem State.writeFp_stale (F : Fmt) (r : Reg) (v : BitVec F.width) : (s.writeFp F r v).stale = s.stale := rfl

@[simp] theorem State.writeFp_ioTrace (F : Fmt) (r : Reg) (v : BitVec F.width) :
    (s.writeFp F r v).ioTrace = s.ioTrace := rfl

@[simp] theorem State.writeFp_status (F : Fmt) (r : Reg) (v : BitVec F.width) :
    (s.writeFp F r v).status = s.status := rfl

@[simp] theorem State.writeFp_loop (F : Fmt) (r : Reg) (v : BitVec F.width) : (s.writeFp F r v).loop = s.loop := rfl

@[simp] theorem State.writeFp_launched (F : Fmt) (r : Reg) (v : BitVec F.width) :
    (s.writeFp F r v).launched = s.launched := rfl

@[simp] theorem State.writeFp_draws (F : Fmt) (r : Reg) (v : BitVec F.width) : (s.writeFp F r v).draws = s.draws := rfl

/-! ### `setFrm` -/

@[simp] theorem State.setFrm_cfg (m : BitVec 3) : (s.setFrm m).cfg = s.cfg := rfl

@[simp] theorem State.setFrm_x (m : BitVec 3) : (s.setFrm m).x = s.x := rfl

@[simp] theorem State.setFrm_pc (m : BitVec 3) : (s.setFrm m).pc = s.pc := rfl

@[simp] theorem State.setFrm_f (m : BitVec 3) : (s.setFrm m).f = s.f := rfl

@[simp] theorem State.setFrm_cycle (m : BitVec 3) : (s.setFrm m).cycle = s.cycle := rfl

@[simp] theorem State.setFrm_time (m : BitVec 3) : (s.setFrm m).time = s.time := rfl

@[simp] theorem State.setFrm_instret (m : BitVec 3) : (s.setFrm m).instret = s.instret := rfl

@[simp] theorem State.setFrm_hpm (m : BitVec 3) : (s.setFrm m).hpm = s.hpm := rfl

@[simp] theorem State.setFrm_reservation (m : BitVec 3) : (s.setFrm m).reservation = s.reservation := rfl

@[simp] theorem State.setFrm_memory (m : BitVec 3) : (s.setFrm m).memory = s.memory := rfl

@[simp] theorem State.setFrm_stale (m : BitVec 3) : (s.setFrm m).stale = s.stale := rfl

@[simp] theorem State.setFrm_ioTrace (m : BitVec 3) : (s.setFrm m).ioTrace = s.ioTrace := rfl

@[simp] theorem State.setFrm_status (m : BitVec 3) : (s.setFrm m).status = s.status := rfl

@[simp] theorem State.setFrm_loop (m : BitVec 3) : (s.setFrm m).loop = s.loop := rfl

@[simp] theorem State.setFrm_launched (m : BitVec 3) : (s.setFrm m).launched = s.launched := rfl

@[simp] theorem State.setFrm_draws (m : BitVec 3) : (s.setFrm m).draws = s.draws := rfl

/-! ### `setFflags` -/

@[simp] theorem State.setFflags_cfg (fl : FFlags) : (s.setFflags fl).cfg = s.cfg := rfl

@[simp] theorem State.setFflags_x (fl : FFlags) : (s.setFflags fl).x = s.x := rfl

@[simp] theorem State.setFflags_pc (fl : FFlags) : (s.setFflags fl).pc = s.pc := rfl

@[simp] theorem State.setFflags_f (fl : FFlags) : (s.setFflags fl).f = s.f := rfl

@[simp] theorem State.setFflags_cycle (fl : FFlags) : (s.setFflags fl).cycle = s.cycle := rfl

@[simp] theorem State.setFflags_time (fl : FFlags) : (s.setFflags fl).time = s.time := rfl

@[simp] theorem State.setFflags_instret (fl : FFlags) : (s.setFflags fl).instret = s.instret := rfl

@[simp] theorem State.setFflags_hpm (fl : FFlags) : (s.setFflags fl).hpm = s.hpm := rfl

@[simp] theorem State.setFflags_reservation (fl : FFlags) : (s.setFflags fl).reservation = s.reservation := rfl

@[simp] theorem State.setFflags_memory (fl : FFlags) : (s.setFflags fl).memory = s.memory := rfl

@[simp] theorem State.setFflags_stale (fl : FFlags) : (s.setFflags fl).stale = s.stale := rfl

@[simp] theorem State.setFflags_ioTrace (fl : FFlags) : (s.setFflags fl).ioTrace = s.ioTrace := rfl

@[simp] theorem State.setFflags_status (fl : FFlags) : (s.setFflags fl).status = s.status := rfl

@[simp] theorem State.setFflags_loop (fl : FFlags) : (s.setFflags fl).loop = s.loop := rfl

@[simp] theorem State.setFflags_launched (fl : FFlags) : (s.setFflags fl).launched = s.launched := rfl

@[simp] theorem State.setFflags_draws (fl : FFlags) : (s.setFflags fl).draws = s.draws := rfl

/-! ### `setFcsr` -/

@[simp] theorem State.setFcsr_cfg (v : BitVec 8) : (s.setFcsr v).cfg = s.cfg := rfl

@[simp] theorem State.setFcsr_x (v : BitVec 8) : (s.setFcsr v).x = s.x := rfl

@[simp] theorem State.setFcsr_pc (v : BitVec 8) : (s.setFcsr v).pc = s.pc := rfl

@[simp] theorem State.setFcsr_f (v : BitVec 8) : (s.setFcsr v).f = s.f := rfl

@[simp] theorem State.setFcsr_cycle (v : BitVec 8) : (s.setFcsr v).cycle = s.cycle := rfl

@[simp] theorem State.setFcsr_time (v : BitVec 8) : (s.setFcsr v).time = s.time := rfl

@[simp] theorem State.setFcsr_instret (v : BitVec 8) : (s.setFcsr v).instret = s.instret := rfl

@[simp] theorem State.setFcsr_hpm (v : BitVec 8) : (s.setFcsr v).hpm = s.hpm := rfl

@[simp] theorem State.setFcsr_reservation (v : BitVec 8) : (s.setFcsr v).reservation = s.reservation := rfl

@[simp] theorem State.setFcsr_memory (v : BitVec 8) : (s.setFcsr v).memory = s.memory := rfl

@[simp] theorem State.setFcsr_stale (v : BitVec 8) : (s.setFcsr v).stale = s.stale := rfl

@[simp] theorem State.setFcsr_ioTrace (v : BitVec 8) : (s.setFcsr v).ioTrace = s.ioTrace := rfl

@[simp] theorem State.setFcsr_status (v : BitVec 8) : (s.setFcsr v).status = s.status := rfl

@[simp] theorem State.setFcsr_loop (v : BitVec 8) : (s.setFcsr v).loop = s.loop := rfl

@[simp] theorem State.setFcsr_launched (v : BitVec 8) : (s.setFcsr v).launched = s.launched := rfl

@[simp] theorem State.setFcsr_draws (v : BitVec 8) : (s.setFcsr v).draws = s.draws := rfl

/-! ### `accrue` -/

@[simp] theorem State.accrue_cfg (fl : FFlags) : (s.accrue fl).cfg = s.cfg := rfl

@[simp] theorem State.accrue_x (fl : FFlags) : (s.accrue fl).x = s.x := rfl

@[simp] theorem State.accrue_pc (fl : FFlags) : (s.accrue fl).pc = s.pc := rfl

@[simp] theorem State.accrue_f (fl : FFlags) : (s.accrue fl).f = s.f := rfl

@[simp] theorem State.accrue_cycle (fl : FFlags) : (s.accrue fl).cycle = s.cycle := rfl

@[simp] theorem State.accrue_time (fl : FFlags) : (s.accrue fl).time = s.time := rfl

@[simp] theorem State.accrue_instret (fl : FFlags) : (s.accrue fl).instret = s.instret := rfl

@[simp] theorem State.accrue_hpm (fl : FFlags) : (s.accrue fl).hpm = s.hpm := rfl

@[simp] theorem State.accrue_reservation (fl : FFlags) : (s.accrue fl).reservation = s.reservation := rfl

@[simp] theorem State.accrue_memory (fl : FFlags) : (s.accrue fl).memory = s.memory := rfl

@[simp] theorem State.accrue_stale (fl : FFlags) : (s.accrue fl).stale = s.stale := rfl

@[simp] theorem State.accrue_ioTrace (fl : FFlags) : (s.accrue fl).ioTrace = s.ioTrace := rfl

@[simp] theorem State.accrue_status (fl : FFlags) : (s.accrue fl).status = s.status := rfl

@[simp] theorem State.accrue_loop (fl : FFlags) : (s.accrue fl).loop = s.loop := rfl

@[simp] theorem State.accrue_launched (fl : FFlags) : (s.accrue fl).launched = s.launched := rfl

@[simp] theorem State.accrue_draws (fl : FFlags) : (s.accrue fl).draws = s.draws := rfl

/-! ### `retireTo` -/

@[simp] theorem State.retireTo_cfg (target : Word) : (s.retireTo target).cfg = s.cfg := rfl

@[simp] theorem State.retireTo_x (target : Word) : (s.retireTo target).x = s.x := rfl

@[simp] theorem State.retireTo_pc (target : Word) : (s.retireTo target).pc = target := rfl

@[simp] theorem State.retireTo_f (target : Word) : (s.retireTo target).f = s.f := rfl

@[simp] theorem State.retireTo_fcsr (target : Word) : (s.retireTo target).fcsr = s.fcsr := rfl

@[simp] theorem State.retireTo_cycle (target : Word) : (s.retireTo target).cycle = s.cycle := rfl

@[simp] theorem State.retireTo_time (target : Word) : (s.retireTo target).time = s.time := rfl

@[simp] theorem State.retireTo_instret (target : Word) : (s.retireTo target).instret = s.instret + 1 := rfl

@[simp] theorem State.retireTo_hpm (target : Word) : (s.retireTo target).hpm = s.hpm := rfl

@[simp] theorem State.retireTo_reservation (target : Word) : (s.retireTo target).reservation = s.reservation := rfl

@[simp] theorem State.retireTo_memory (target : Word) : (s.retireTo target).memory = s.memory := rfl

@[simp] theorem State.retireTo_stale (target : Word) : (s.retireTo target).stale = s.stale := rfl

@[simp] theorem State.retireTo_ioTrace (target : Word) : (s.retireTo target).ioTrace = s.ioTrace := rfl

@[simp] theorem State.retireTo_status (target : Word) : (s.retireTo target).status = s.status := rfl

@[simp] theorem State.retireTo_loop (target : Word) : (s.retireTo target).loop = s.loop := rfl

@[simp] theorem State.retireTo_launched (target : Word) : (s.retireTo target).launched = s.launched := rfl

@[simp] theorem State.retireTo_draws (target : Word) : (s.retireTo target).draws = s.draws := rfl

/-! ### `keepStale` -/

@[simp] theorem State.keepStale_cfg (a : Nat) (b : Byte) : (s.keepStale a b).cfg = s.cfg := by
  simp only [State.keepStale]; split <;> rfl

@[simp] theorem State.keepStale_x (a : Nat) (b : Byte) : (s.keepStale a b).x = s.x := by
  simp only [State.keepStale]; split <;> rfl

@[simp] theorem State.keepStale_pc (a : Nat) (b : Byte) : (s.keepStale a b).pc = s.pc := by
  simp only [State.keepStale]; split <;> rfl

@[simp] theorem State.keepStale_f (a : Nat) (b : Byte) : (s.keepStale a b).f = s.f := by
  simp only [State.keepStale]; split <;> rfl

@[simp] theorem State.keepStale_fcsr (a : Nat) (b : Byte) : (s.keepStale a b).fcsr = s.fcsr := by
  simp only [State.keepStale]; split <;> rfl

@[simp] theorem State.keepStale_cycle (a : Nat) (b : Byte) : (s.keepStale a b).cycle = s.cycle := by
  simp only [State.keepStale]; split <;> rfl

@[simp] theorem State.keepStale_time (a : Nat) (b : Byte) : (s.keepStale a b).time = s.time := by
  simp only [State.keepStale]; split <;> rfl

@[simp] theorem State.keepStale_instret (a : Nat) (b : Byte) : (s.keepStale a b).instret = s.instret := by
  simp only [State.keepStale]; split <;> rfl

@[simp] theorem State.keepStale_hpm (a : Nat) (b : Byte) : (s.keepStale a b).hpm = s.hpm := by
  simp only [State.keepStale]; split <;> rfl

@[simp] theorem State.keepStale_reservation (a : Nat) (b : Byte) : (s.keepStale a b).reservation = s.reservation := by
  simp only [State.keepStale]; split <;> rfl

@[simp] theorem State.keepStale_memory (a : Nat) (b : Byte) : (s.keepStale a b).memory = s.memory := by
  simp only [State.keepStale]; split <;> rfl

@[simp] theorem State.keepStale_ioTrace (a : Nat) (b : Byte) : (s.keepStale a b).ioTrace = s.ioTrace := by
  simp only [State.keepStale]; split <;> rfl

@[simp] theorem State.keepStale_status (a : Nat) (b : Byte) : (s.keepStale a b).status = s.status := by
  simp only [State.keepStale]; split <;> rfl

@[simp] theorem State.keepStale_loop (a : Nat) (b : Byte) : (s.keepStale a b).loop = s.loop := by
  simp only [State.keepStale]; split <;> rfl

@[simp] theorem State.keepStale_launched (a : Nat) (b : Byte) : (s.keepStale a b).launched = s.launched := by
  simp only [State.keepStale]; split <;> rfl

@[simp] theorem State.keepStale_draws (a : Nat) (b : Byte) : (s.keepStale a b).draws = s.draws := by
  simp only [State.keepStale]; split <;> rfl

/-! ### `writeMain` -/

@[simp] theorem State.writeMain_cfg (a : Nat) (b : Byte) : (s.writeMain a b).cfg = s.cfg := by
  simp [State.writeMain]

@[simp] theorem State.writeMain_x (a : Nat) (b : Byte) : (s.writeMain a b).x = s.x := by
  simp [State.writeMain]

@[simp] theorem State.writeMain_pc (a : Nat) (b : Byte) : (s.writeMain a b).pc = s.pc := by
  simp [State.writeMain]

@[simp] theorem State.writeMain_f (a : Nat) (b : Byte) : (s.writeMain a b).f = s.f := by
  simp [State.writeMain]

@[simp] theorem State.writeMain_fcsr (a : Nat) (b : Byte) : (s.writeMain a b).fcsr = s.fcsr := by
  simp [State.writeMain]

@[simp] theorem State.writeMain_cycle (a : Nat) (b : Byte) : (s.writeMain a b).cycle = s.cycle := by
  simp [State.writeMain]

@[simp] theorem State.writeMain_time (a : Nat) (b : Byte) : (s.writeMain a b).time = s.time := by
  simp [State.writeMain]

@[simp] theorem State.writeMain_instret (a : Nat) (b : Byte) : (s.writeMain a b).instret = s.instret := by
  simp [State.writeMain]

@[simp] theorem State.writeMain_hpm (a : Nat) (b : Byte) : (s.writeMain a b).hpm = s.hpm := by
  simp [State.writeMain]

@[simp] theorem State.writeMain_reservation (a : Nat) (b : Byte) : (s.writeMain a b).reservation = s.reservation := by
  simp [State.writeMain]

@[simp] theorem State.writeMain_ioTrace (a : Nat) (b : Byte) : (s.writeMain a b).ioTrace = s.ioTrace := by
  simp [State.writeMain]

@[simp] theorem State.writeMain_status (a : Nat) (b : Byte) : (s.writeMain a b).status = s.status := by
  simp [State.writeMain]

@[simp] theorem State.writeMain_loop (a : Nat) (b : Byte) : (s.writeMain a b).loop = s.loop := by
  simp [State.writeMain]

@[simp] theorem State.writeMain_launched (a : Nat) (b : Byte) : (s.writeMain a b).launched = s.launched := by
  simp [State.writeMain]

@[simp] theorem State.writeMain_draws (a : Nat) (b : Byte) : (s.writeMain a b).draws = s.draws := by
  simp [State.writeMain]

/-! ### `writeCells` -/

@[simp] theorem State.writeCells_cfg (cells : List Host.Cell) : (s.writeCells cells).cfg = s.cfg := by
  induction cells generalizing s with
  | nil => rfl
  | cons c rest ih => exact (ih _).trans (s.writeMain_cfg c.1 c.2)

@[simp] theorem State.writeCells_x (cells : List Host.Cell) : (s.writeCells cells).x = s.x := by
  induction cells generalizing s with
  | nil => rfl
  | cons c rest ih => exact (ih _).trans (s.writeMain_x c.1 c.2)

@[simp] theorem State.writeCells_pc (cells : List Host.Cell) : (s.writeCells cells).pc = s.pc := by
  induction cells generalizing s with
  | nil => rfl
  | cons c rest ih => exact (ih _).trans (s.writeMain_pc c.1 c.2)

@[simp] theorem State.writeCells_f (cells : List Host.Cell) : (s.writeCells cells).f = s.f := by
  induction cells generalizing s with
  | nil => rfl
  | cons c rest ih => exact (ih _).trans (s.writeMain_f c.1 c.2)

@[simp] theorem State.writeCells_fcsr (cells : List Host.Cell) : (s.writeCells cells).fcsr = s.fcsr := by
  induction cells generalizing s with
  | nil => rfl
  | cons c rest ih => exact (ih _).trans (s.writeMain_fcsr c.1 c.2)

@[simp] theorem State.writeCells_cycle (cells : List Host.Cell) : (s.writeCells cells).cycle = s.cycle := by
  induction cells generalizing s with
  | nil => rfl
  | cons c rest ih => exact (ih _).trans (s.writeMain_cycle c.1 c.2)

@[simp] theorem State.writeCells_time (cells : List Host.Cell) : (s.writeCells cells).time = s.time := by
  induction cells generalizing s with
  | nil => rfl
  | cons c rest ih => exact (ih _).trans (s.writeMain_time c.1 c.2)

@[simp] theorem State.writeCells_instret (cells : List Host.Cell) : (s.writeCells cells).instret = s.instret := by
  induction cells generalizing s with
  | nil => rfl
  | cons c rest ih => exact (ih _).trans (s.writeMain_instret c.1 c.2)

@[simp] theorem State.writeCells_hpm (cells : List Host.Cell) : (s.writeCells cells).hpm = s.hpm := by
  induction cells generalizing s with
  | nil => rfl
  | cons c rest ih => exact (ih _).trans (s.writeMain_hpm c.1 c.2)

@[simp] theorem State.writeCells_reservation (cells : List Host.Cell) :
    (s.writeCells cells).reservation = s.reservation := by
  induction cells generalizing s with
  | nil => rfl
  | cons c rest ih => exact (ih _).trans (s.writeMain_reservation c.1 c.2)

@[simp] theorem State.writeCells_ioTrace (cells : List Host.Cell) : (s.writeCells cells).ioTrace = s.ioTrace := by
  induction cells generalizing s with
  | nil => rfl
  | cons c rest ih => exact (ih _).trans (s.writeMain_ioTrace c.1 c.2)

@[simp] theorem State.writeCells_status (cells : List Host.Cell) : (s.writeCells cells).status = s.status := by
  induction cells generalizing s with
  | nil => rfl
  | cons c rest ih => exact (ih _).trans (s.writeMain_status c.1 c.2)

@[simp] theorem State.writeCells_loop (cells : List Host.Cell) : (s.writeCells cells).loop = s.loop := by
  induction cells generalizing s with
  | nil => rfl
  | cons c rest ih => exact (ih _).trans (s.writeMain_loop c.1 c.2)

@[simp] theorem State.writeCells_launched (cells : List Host.Cell) : (s.writeCells cells).launched = s.launched := by
  induction cells generalizing s with
  | nil => rfl
  | cons c rest ih => exact (ih _).trans (s.writeMain_launched c.1 c.2)

@[simp] theorem State.writeCells_draws (cells : List Host.Cell) : (s.writeCells cells).draws = s.draws := by
  induction cells generalizing s with
  | nil => rfl
  | cons c rest ih => exact (ih _).trans (s.writeMain_draws c.1 c.2)

/-! ### Reading back -/

@[simp] theorem State.readX_zero : s.readX 0#5 = 0#64 := rfl

theorem State.readX_congr {s t : State} (h : s.x = t.x) (r : Reg) : s.readX r = t.readX r := by
  unfold State.readX; rw [h]

theorem State.readX_writeX (r q : Reg) (v : Word) :
    (s.writeX r v).readX q = if q = r ∧ r ≠ 0#5 then s.cfg.truncate v else s.readX q := by
  by_cases hr : r = 0#5
  · simp [State.writeX, hr]
  · by_cases hq : q = r
    · subst hq; simp [State.readX, State.writeX, hr]
    · have : r.toNat ≠ q.toNat := fun h => hq (BitVec.eq_of_toNat_eq h.symm)
      simp [State.readX, State.writeX, hr, hq, this]

theorem State.readF_writeF (r q : Reg) (v : FWord) :
    (s.writeF r v).readF q = if q = r then v else s.readF q := by
  by_cases hq : q = r
  · subst hq; simp [State.readF, State.writeF]
  · have : r.toNat ≠ q.toNat := fun h => hq (BitVec.eq_of_toNat_eq h.symm)
    simp [State.readF, State.writeF, hq, this]

theorem State.readF_congr {s t : State} (h : s.f = t.f) (r : Reg) : s.readF r = t.readF r := by
  unfold State.readF; rw [h]

/-! ### The next states of `Safety.lean` as updates -/

theorem State.retireTo_writeX (rd : Reg) (v target : Word) :
    (s.writeX rd v).retireTo target = s.afterLink rd v target := by
  unfold State.retireTo State.writeX State.afterLink; split <;> rfl

theorem State.afterPc_eq (target : Word) : s.retireTo target = s.afterPc target := rfl

theorem State.retireTo_writeF (rd : Reg) (v : FWord) (len : Nat) :
    (s.writeF rd v).retireTo (s.pcAfter len) = s.afterF rd v len := rfl

/-- ORing flags into the low field of `fcsr` is ORing them into `fcsr`. -/
theorem fcsr_accrue (c : BitVec 8) (fl : FFlags) :
    (c.extractLsb' 5 3 ++ (c.extractLsb' 0 5 ||| fl) : BitVec 8) = c ||| fl.setWidth 8 := by
  apply BitVec.eq_of_getLsbD_eq
  intro i hi
  simp only [BitVec.getLsbD_append, BitVec.getLsbD_or, BitVec.getLsbD_extractLsb', BitVec.getLsbD_setWidth]
  by_cases h : i < 5
  · simp [h, hi]
  · have : 5 + (i - 5) = i := by omega
    have h2 : fl.getLsbD i = false := BitVec.getLsbD_of_ge _ _ (by omega)
    have h3 : i - 5 < 3 := by omega
    simp [h, this, h2, h3]

theorem State.accrue_eq (fl : FFlags) : s.accrue fl = s.withFlags fl := by
  unfold State.accrue State.setFflags State.withFlags State.frm State.fflags
  rw [fcsr_accrue]

@[simp] theorem State.withFlags_none : s.withFlags flagNone = s := by
  simp [State.withFlags, flagNone]

end Sys2Proof.Machine
end

