-- ==== Sys2Proof/Laws/Memory.lean ====
section
/-! SUPPORT. Memory: reading after a write, the canonical form, and what an access does. -/

namespace Sys2Proof.Machine

/-! ### One byte -/

theorem Memory.read_insert (m : List Host.Cell) (a x : Nat) (b : Byte) :
    Memory.read (Memory.insert a b m) x = if x = a then b else Memory.read m x := by
  induction m with
  | nil => simp [Memory.insert, Memory.read, eq_comm]
  | cons c rest ih =>
    unfold Memory.insert
    split
    · rename_i h
      simp only [Memory.read, ih]
      by_cases hx : x = a
      · subst hx; simp; omega
      · simp [hx]
    · simp [Memory.read, eq_comm]

theorem Memory.read_filter (m : List Host.Cell) (a x : Nat) :
    Memory.read (m.filter fun c => c.1 != a) x = if x = a then Memory.blank else Memory.read m x := by
  induction m with
  | nil => simp [Memory.read]
  | cons c rest ih =>
    by_cases h : c.1 = a
    · simp only [List.filter_cons, h, bne_self_eq_false, Bool.false_eq_true, if_false, ih, Memory.read]
      by_cases hx : x = a
      · simp [hx]
      · have : a ≠ x := fun h => hx h.symm
        simp [hx, this]
    · have hb : (c.1 != a) = true := by simpa using h
      simp only [List.filter_cons, hb, if_true, Memory.read, ih]
      by_cases hc : c.1 = x
      · simp [hc, show x ≠ a from hc ▸ h]
      · simp [hc]

/-- A read after a write gives the value written at its address, and what was there before at every other. -/
theorem Memory.read_write (m : List Host.Cell) (a x : Nat) (b : Byte) :
    Memory.read (Memory.write m a b) x = if x = a then b else Memory.read m x := by
  unfold Memory.write
  by_cases hb : b = Memory.blank
  · simp only [hb, if_true, Memory.read_filter]
  · simp only [hb, if_false, Memory.read_insert, Memory.read_filter]
    split <;> rfl

/-! ### The canonical form -/

theorem Memory.wf_iff (m : List Host.Cell) :
    Memory.wf m = true ↔ m.Pairwise (fun c d => c.1 < d.1) ∧ ∀ c ∈ m, c.2 ≠ Memory.blank := by
  induction m with
  | nil => simp [Memory.wf]
  | cons c rest ih =>
    cases rest with
    | nil => simp [Memory.wf]
    | cons d rest =>
      simp only [Memory.wf, Bool.and_eq_true, bne_iff_ne, decide_eq_true_eq, ih, List.pairwise_cons,
        List.mem_cons, forall_eq_or_imp]
      constructor
      · rintro ⟨⟨hc, hcd⟩, ⟨hd, hp⟩, hdb, hr⟩
        exact ⟨⟨⟨hcd, fun x hx => Nat.lt_trans hcd (hd x hx)⟩, hd, hp⟩, hc, hdb, hr⟩
      · rintro ⟨⟨⟨hcd, _⟩, hd, hp⟩, hc, hdb, hr⟩
        exact ⟨⟨hc, hcd⟩, ⟨hd, hp⟩, hdb, hr⟩

theorem Memory.mem_insert {m : List Host.Cell} {a : Nat} {b : Byte} {c : Host.Cell}
    (h : c ∈ Memory.insert a b m) : c = (a, b) ∨ c ∈ m := by
  induction m with
  | nil => simpa [Memory.insert] using h
  | cons d rest ih =>
    unfold Memory.insert at h
    split at h
    · rcases List.mem_cons.1 h with h | h
      · exact .inr (h ▸ List.mem_cons_self)
      · rcases ih h with h | h
        · exact .inl h
        · exact .inr (List.mem_cons_of_mem _ h)
    · rcases List.mem_cons.1 h with h | h
      · exact .inl h
      · exact .inr h

theorem Memory.pairwise_insert {m : List Host.Cell} {a : Nat} {b : Byte}
    (hp : m.Pairwise fun c d => c.1 < d.1) (ha : ∀ c ∈ m, c.1 ≠ a) :
    (Memory.insert a b m).Pairwise fun c d => c.1 < d.1 := by
  induction m with
  | nil => simp [Memory.insert]
  | cons d rest ih =>
    have hd : d.1 ≠ a := ha d List.mem_cons_self
    rw [List.pairwise_cons] at hp
    unfold Memory.insert
    split
    · rename_i hlt
      refine List.pairwise_cons.2 ⟨fun c hc => ?_, ih hp.2 fun c hc => ha c (List.mem_cons_of_mem _ hc)⟩
      rcases Memory.mem_insert hc with rfl | hc
      · exact hlt
      · exact hp.1 c hc
    · refine List.pairwise_cons.2 ⟨fun c hc => ?_, List.pairwise_cons.2 hp⟩
      rcases List.mem_cons.1 hc with rfl | hc
      · show a < _; omega
      · have := hp.1 c hc
        show a < c.1; omega

/-- A write keeps the canonical form. -/
theorem Memory.wf_write {m : List Host.Cell} (a : Nat) (b : Byte) (h : Memory.wf m = true) :
    Memory.wf (Memory.write m a b) = true := by
  rw [Memory.wf_iff] at h ⊢
  have hf : (m.filter fun c => c.1 != a).Pairwise fun c d => c.1 < d.1 := h.1.filter _
  unfold Memory.write
  by_cases hb : b = Memory.blank
  · simp only [hb, if_true]
    exact ⟨hf, fun c hc => h.2 c (List.mem_filter.1 hc).1⟩
  · simp only [hb, if_false]
    refine ⟨Memory.pairwise_insert hf fun c hc => by simpa using (List.mem_filter.1 hc).2, fun c hc => ?_⟩
    rcases Memory.mem_insert hc with rfl | hc
    · exact hb
    · exact h.2 c (List.mem_filter.1 hc).1

/-- A write lists no address but its own that was not listed before. -/
theorem Memory.mem_write {m : List Host.Cell} {a : Nat} {b : Byte} {c : Host.Cell}
    (h : c ∈ Memory.write m a b) : c = (a, b) ∨ c ∈ m := by
  unfold Memory.write at h
  simp only at h
  split at h
  · exact .inr (List.mem_filter.1 h).1
  · exact (Memory.mem_insert h).imp id fun h => (List.mem_filter.1 h).1

/-! ### Writing cells of main memory -/

/-- Writing cells changes memory and the fetch candidates, and nothing else. -/
theorem State.writeCells_eq (s : State) (cells : List Host.Cell) :
    ∃ m st, s.writeCells cells = { s with memory := m, stale := st } := by
  induction cells generalizing s with
  | nil => exact ⟨s.memory, s.stale, rfl⟩
  | cons c rest ih =>
    obtain ⟨m, st, h⟩ := ih (s.writeMain c.1 c.2)
    refine ⟨m, st, ?_⟩
    show (s.writeMain c.1 c.2).writeCells rest = _
    rw [h]
    simp

@[simp] theorem State.writeMain_memory (s : State) (a : Nat) (b : Byte) :
    (s.writeMain a b).memory = Memory.write s.memory a b := by
  simp [State.writeMain]

theorem State.writeCells_cons (s : State) (c : Host.Cell) (rest : List Host.Cell) :
    s.writeCells (c :: rest) = (s.writeMain c.1 c.2).writeCells rest := rfl

/-- Writing cells keeps the canonical form. -/
theorem State.writeCells_wf (s : State) (cells : List Host.Cell) (h : Memory.wf s.memory = true) :
    Memory.wf (s.writeCells cells).memory = true := by
  induction cells generalizing s with
  | nil => exact h
  | cons c rest ih => exact ih _ (by simpa using Memory.wf_write _ _ h)

/-- Writing cells lists no address but those written. -/
theorem State.mem_writeCells (s : State) (cells : List Host.Cell) {c : Host.Cell}
    (h : c ∈ (s.writeCells cells).memory) : c ∈ cells ∨ c ∈ s.memory := by
  induction cells generalizing s with
  | nil => exact .inr h
  | cons d rest ih =>
    rcases ih _ h with h | h
    · exact .inl (List.mem_cons_of_mem _ h)
    · rw [State.writeMain_memory] at h
      rcases Memory.mem_write h with rfl | h
      · exact .inl List.mem_cons_self
      · exact .inr h

/-- Bytes outside the addresses written read as before. -/
theorem State.read_writeCells_other (s : State) (cells : List Host.Cell) (x : Nat) (h : ∀ c ∈ cells, c.1 ≠ x) :
    Memory.read (s.writeCells cells).memory x = Memory.read s.memory x := by
  induction cells generalizing s with
  | nil => rfl
  | cons c rest ih =>
    rw [State.writeCells_cons, ih _ fun d hd => h d (List.mem_cons_of_mem _ hd), State.writeMain_memory,
      Memory.read_write, if_neg (Ne.symm (h c List.mem_cons_self))]

/-- The last cell written to an address decides what it reads; with none it reads as before. -/
theorem State.read_writeCells (s : State) (cells : List Host.Cell) (a : Nat) :
    Memory.read (s.writeCells cells).memory a =
      ((cells.reverse.find? fun c => c.1 == a).map fun c => c.2).getD (Memory.read s.memory a) := by
  induction cells generalizing s with
  | nil => rfl
  | cons c rest ih =>
    rw [State.writeCells_cons, ih, State.writeMain_memory, Memory.read_write, List.reverse_cons, List.find?_append]
    cases rest.reverse.find? fun c => c.1 == a with
    | some _ => rfl
    | none =>
      by_cases h : c.1 = a
      · simp [h]
      · simp [h, Ne.symm h]

/-- A byte that is written once reads as what was written. -/
theorem State.read_writeCells_same (s : State) (cells : List Host.Cell) (x : Nat) (b : Byte)
    (hn : (cells.map fun c => c.1).Nodup) (h : (x, b) ∈ cells) :
    Memory.read (s.writeCells cells).memory x = b := by
  induction cells generalizing s with
  | nil => cases h
  | cons c rest ih =>
    rw [List.map_cons, List.nodup_cons] at hn
    rw [State.writeCells_cons]
    rcases List.mem_cons.1 h with h | h
    · subst h
      rw [State.read_writeCells_other, State.writeMain_memory, Memory.read_write, if_pos rfl]
      intro d hd hdx
      exact hn.1 (List.mem_map.2 ⟨d, hd, hdx⟩)
    · exact ih _ hn.2 h

/-- No candidate of a fetch is lost by writing cells. -/
theorem State.stale_writeCells (s : State) (cells : List Host.Cell) {c : Host.Cell} (h : c ∈ s.stale) :
    c ∈ (s.writeCells cells).stale := by
  induction cells generalizing s with
  | nil => exact h
  | cons d rest ih =>
    refine ih _ ?_
    show c ∈ (s.keepStale d.1 d.2).stale
    unfold State.keepStale
    simp only
    split
    · exact h
    · exact List.mem_cons_of_mem _ h

/-- What a byte held before cells were written, where that changed it, is a candidate of a fetch. -/
theorem State.stale_of_changed (s : State) (cells : List Host.Cell) {a : Nat}
    (h : Memory.read (s.writeCells cells).memory a ≠ Memory.read s.memory a) :
    (a, Memory.read s.memory a) ∈ (s.writeCells cells).stale := by
  induction cells generalizing s with
  | nil => exact absurd rfl h
  | cons c rest ih =>
    rw [State.writeCells_cons] at *
    by_cases h1 : Memory.read (s.writeMain c.1 c.2).memory a = Memory.read s.memory a
    · rw [← h1] at h ⊢
      exact ih _ h
    · apply State.stale_writeCells
      rw [State.writeMain_memory, Memory.read_write] at h1
      split at h1
      · rename_i he
        subst he
        show _ ∈ (s.keepStale c.1 c.2).stale
        unfold State.keepStale
        simp only
        split
        · rename_i hh
          exact hh.elim (fun hh => absurd hh.symm h1) id
        · exact List.mem_cons_self
      · exact absurd rfl h1

/-! ### Accesses -/

/-- The addresses of an access lie in the address space. -/
theorem byteAddrs_lt {c : Config} {ea : Word} {n a : Nat} (h : a ∈ byteAddrs c ea n) : a < 2 ^ c.xlen := by
  obtain ⟨i, -, rfl⟩ := List.mem_map.1 h
  exact Nat.mod_lt _ (by positivity)

theorem byteAddrs_length (c : Config) (ea : Word) (n : Nat) : (byteAddrs c ea n).length = n := by
  simp [byteAddrs]

theorem toLittle_length (n v : Nat) : (toLittle n v).length = n := by simp [toLittle]

theorem toBytes_length (e : Endian) (n v : Nat) : (toBytes e n v).length = n := by
  cases e <;> simp [toBytes, toLittle]

theorem storeCells_fst (c : Config) (ea : Word) (n : Nat) (v : BitVec (8 * n)) :
    (storeCells c ea n v).map (fun w => w.1) = byteAddrs c ea n := by
  unfold storeCells
  exact List.map_fst_zip (by rw [byteAddrs_length, toBytes_length])

theorem storeCells_length (c : Config) (ea : Word) (n : Nat) (v : BitVec (8 * n)) :
    (storeCells c ea n v).length = n := by
  rw [← List.length_map (f := fun w : Host.Cell => w.1), storeCells_fst, byteAddrs_length]

theorem mem_byteAddrs_of_storeCells {c : Config} {ea : Word} {n : Nat} {v : BitVec (8 * n)} {w : Host.Cell}
    (h : w ∈ storeCells c ea n v) : w.1 ∈ byteAddrs c ea n := by
  rw [← storeCells_fst c ea n v]; exact List.mem_map.2 ⟨w, h, rfl⟩

/-- An access all of whose bytes lie in main memory touches no device. -/
theorem touchesIo_eq_false {c : Config} {ea : Word} {n : Nat} (h : ∀ a ∈ byteAddrs c ea n, isIo c a = false) :
    touchesIo c ea n = false := by
  unfold touchesIo
  rw [List.any_eq_false]
  intro a ha
  simp [h a ha]

/-- `MemRead` changes nothing but the draw counter. -/
theorem State.memRead_eq (s : State) (ea : Word) (n : Nat) (w : Bool) : ∃ d, (s.memRead ea n w).2 = { s with draws := d } := by
  unfold State.memRead
  by_cases h : touchesIo s.cfg ea n = true
  · exact ⟨_, by simp only [h, if_true]; rfl⟩
  · exact ⟨s.draws, by simp only [h]; rfl⟩

/-- `MemRead` of main memory changes nothing. -/
theorem State.memRead_snd_main (s : State) {ea : Word} {n : Nat} (w : Bool) (h : touchesIo s.cfg ea n = false) :
    (s.memRead ea n w).2 = s := by
  unfold State.memRead; simp [h]

theorem State.readBytes_length (s : State) (ea : Word) (n : Nat) (w : Bool) : (s.readBytes ea n w).length = n := by
  simp [State.readBytes, byteAddrs_length]

/-- The bytes of an access to main memory. -/
theorem State.readBytes_main (s : State) {ea : Word} {n : Nat} (w : Bool) (h : ∀ a ∈ byteAddrs s.cfg ea n, isIo s.cfg a = false) :
    s.readBytes ea n w = (byteAddrs s.cfg ea n).map (Memory.read s.memory) := by
  unfold State.readBytes
  apply List.ext_getElem (by simp)
  intro i h1 h2
  simp only [List.getElem_mapIdx, List.getElem_map, State.byteOf]
  rw [if_neg (by simp [h _ (List.getElem_mem _)])]

/-- The memory after `MemWrite` is that of its cells outside I/O regions. -/
theorem State.memWrite_memory (s : State) (ea : Word) (n : Nat) (v : BitVec (8 * n)) (w : Bool) :
    (s.memWrite ea n v w).memory = (s.writeCells ((storeCells s.cfg ea n v).filter fun c => !isIo s.cfg c.1)).memory := by
  unfold State.memWrite; simp only; split <;> rfl

theorem State.memWrite_stale (s : State) (ea : Word) (n : Nat) (v : BitVec (8 * n)) (w : Bool) :
    (s.memWrite ea n v w).stale = (s.writeCells ((storeCells s.cfg ea n v).filter fun c => !isIo s.cfg c.1)).stale := by
  unfold State.memWrite; simp only; split <;> rfl

/-- `MemWrite` changes memory, the fetch candidates, the output trace and the draw counter, and nothing else. -/
theorem State.memWrite_eq (s : State) (ea : Word) (n : Nat) (v : BitVec (8 * n)) (w : Bool) :
    ∃ m st io d, s.memWrite ea n v w = { s with memory := m, stale := st, ioTrace := io, draws := d } := by
  obtain ⟨m, st, h⟩ := s.writeCells_eq ((storeCells s.cfg ea n v).filter fun c => !isIo s.cfg c.1)
  unfold State.memWrite
  rw [h]
  by_cases ht : touchesIo s.cfg ea n = true
  · exact ⟨m, st, _, _, by simp only [ht, if_true]; rfl⟩
  · exact ⟨m, st, s.ioTrace, s.draws, by simp only [ht]; rfl⟩

/-- `MemWrite` to main memory writes its cells and does nothing else. -/
theorem State.memWrite_main (s : State) {ea : Word} {n : Nat} (v : BitVec (8 * n)) (w : Bool)
    (h : ∀ a ∈ byteAddrs s.cfg ea n, isIo s.cfg a = false) :
    s.memWrite ea n v w = s.writeCells (storeCells s.cfg ea n v) := by
  unfold State.memWrite
  rw [touchesIo_eq_false h, List.filter_eq_self.2 fun c hc => by simp [h c.1 (mem_byteAddrs_of_storeCells hc)]]
  rfl

/-- `MemWrite` leaves every byte outside its addresses. -/
theorem State.read_memWrite_other (s : State) (ea : Word) (n : Nat) (v : BitVec (8 * n)) (w : Bool) (a : Nat)
    (h : a ∉ byteAddrs s.cfg ea n) : Memory.read (s.memWrite ea n v w).memory a = Memory.read s.memory a := by
  rw [State.memWrite_memory]
  refine s.read_writeCells_other _ _ fun c hc hca => h ?_
  rw [← hca]
  exact mem_byteAddrs_of_storeCells (List.mem_filter.1 hc).1

/-- `MemWrite` keeps the canonical form. -/
theorem State.memWrite_wf (s : State) (ea : Word) (n : Nat) (v : BitVec (8 * n)) (w : Bool) (h : Memory.wf s.memory = true) :
    Memory.wf (s.memWrite ea n v w).memory = true := by
  rw [State.memWrite_memory]; exact s.writeCells_wf _ h

/-- `MemWrite` lists no address but those of the access. -/
theorem State.mem_memWrite (s : State) (ea : Word) (n : Nat) (v : BitVec (8 * n)) (w : Bool) {c : Host.Cell}
    (h : c ∈ (s.memWrite ea n v w).memory) : c.1 ∈ byteAddrs s.cfg ea n ∨ c ∈ s.memory := by
  rw [State.memWrite_memory] at h
  exact (s.mem_writeCells _ h).imp (fun h => mem_byteAddrs_of_storeCells (List.mem_filter.1 h).1) id

end Sys2Proof.Machine
end

