-- ==== Sys2Proof/Laws/Ops.lean ====
section
/-! SUPPORT. What each shared operation and each shape of instruction can answer, once: the statements cite these and
unfold no operation. -/

namespace Sys2Proof.Machine

variable (i : Instr) (s : State)

/-! ### Raising, the legality check, retiring, jumping -/

theorem raise_eq (cause : Cause) (tval : Word) (len : Nat) : raise cause tval len s = .next (s.trap cause tval len) :=
  rfl

theorem illegal_eq : illegal i s = .next (s.trap .illegalInstruction (encode i).bits i.ilen) := rfl

theorem legal_of_wf (h : i.wellFormed s.cfg = true) (body : Result) : legal i s body = body := by
  unfold legal; rw [if_pos h]

theorem legal_of_not_wf (h : i.wellFormed s.cfg = false) (body : Result) :
    legal i s body = .next (s.trap .illegalInstruction (encode i).bits i.ilen) := by
  unfold legal; rw [if_neg (by simp [h])]; rfl

/-- A legality check that answers a next state: the body did, or the instruction raised. -/
theorem legal_cases {i : Instr} {s t : State} {body : Result} (h : legal i s body = .next t) :
    (i.wellFormed s.cfg = true ∧ body = .next t) ∨
      (i.wellFormed s.cfg = false ∧ t = s.trap .illegalInstruction (encode i).bits i.ilen) := by
  cases hw : i.wellFormed s.cfg with
  | true => exact .inl ⟨rfl, by rwa [legal_of_wf i s hw] at h⟩
  | false =>
    rw [legal_of_not_wf i s hw] at h
    exact .inr ⟨rfl, by cases h; rfl⟩

theorem retire_eq : retire i s = .next (s.afterPc (s.pcAfter i.ilen)) := rfl

theorem jump_of_aligned {s : State} {target : Word} (h : s.cfg.aligned target = true) (linked : State) :
    jump i target s linked = .next (linked.afterPc target) := by
  unfold jump; rw [if_pos h]; rfl

theorem jump_of_misaligned {s : State} {target : Word} (h : s.cfg.aligned target = false) (linked : State) :
    jump i target s linked = .next (s.trap .instructionAddressMisaligned target i.ilen) := by
  unfold jump; rw [if_neg (by simp [h])]; rfl

/-! ### Shapes of the integer instructions -/

theorem retire_writeX (rd : Reg) (v : Word) : retire i (s.writeX rd v) = .next (s.afterX rd v i.ilen) := by
  unfold retire State.afterX
  rw [← State.retireTo_writeX]
  simp [State.pcAfter]

theorem setReg_of_wf (h : i.wellFormed s.cfg = true) (rd : Reg) (v : Word) :
    setReg i rd v s = .next (s.afterX rd v i.ilen) := by
  unfold setReg; rw [legal_of_wf i s h, retire_writeX]

theorem noEffect_of_wf (h : i.wellFormed s.cfg = true) : noEffect i s = .next (s.afterPc (s.pcAfter i.ilen)) := by
  unfold noEffect; rw [legal_of_wf i s h]; rfl

theorem branch_of_not_taken (h : i.wellFormed s.cfg = true) {test : (w : Nat) → BitVec w → BitVec w → Bool}
    {rs1 rs2 : Reg} (ht : s.cfg.testXlen test (s.readX rs1) (s.readX rs2) = false) (target : Word) :
    branch i test rs1 rs2 target s = .next (s.afterPc (s.pcAfter i.ilen)) := by
  unfold branch; rw [legal_of_wf i s h, if_neg (by simp [ht])]; rfl

theorem branch_of_taken (h : i.wellFormed s.cfg = true) {test : (w : Nat) → BitVec w → BitVec w → Bool}
    {rs1 rs2 : Reg} (ht : s.cfg.testXlen test (s.readX rs1) (s.readX rs2) = true) (target : Word) :
    branch i test rs1 rs2 target s = jump i target s s := by
  unfold branch; rw [legal_of_wf i s h, if_pos ht]

theorem jumpLink_of_aligned (h : i.wellFormed s.cfg = true) {target : Word} (ha : s.cfg.aligned target = true)
    (rd : Reg) : jumpLink i rd target s = .next (s.afterLink rd (s.pcAfter i.ilen) target) := by
  unfold jumpLink; rw [legal_of_wf i s h, jump_of_aligned i ha, ← State.afterPc_eq, State.retireTo_writeX]

theorem jumpLink_of_misaligned (h : i.wellFormed s.cfg = true) {target : Word} (ha : s.cfg.aligned target = false)
    (rd : Reg) : jumpLink i rd target s = .next (s.trap .instructionAddressMisaligned target i.ilen) := by
  unfold jumpLink; rw [legal_of_wf i s h, jump_of_misaligned i ha]

/-! ### Memory -/

@[simp] theorem State.memRead_cfg (ea : Word) (n : Nat) (w : Bool) : (s.memRead ea n w).2.cfg = s.cfg := by
  obtain ⟨_, h⟩ := s.memRead_eq ea n w; rw [h]

@[simp] theorem State.memRead_pc (ea : Word) (n : Nat) (w : Bool) : (s.memRead ea n w).2.pc = s.pc := by
  obtain ⟨_, h⟩ := s.memRead_eq ea n w; rw [h]

@[simp] theorem State.memWrite_cfg (ea : Word) (n : Nat) (v : BitVec (8 * n)) (w : Bool) : (s.memWrite ea n v w).cfg = s.cfg := by
  obtain ⟨_, _, _, _, h⟩ := s.memWrite_eq ea n v w; rw [h]

@[simp] theorem State.memWrite_pc (ea : Word) (n : Nat) (v : BitVec (8 * n)) (w : Bool) : (s.memWrite ea n v w).pc = s.pc := by
  obtain ⟨_, _, _, _, h⟩ := s.memWrite_eq ea n v w; rw [h]

theorem load_of_fault {n : Nat} {ea : Word} {cause : Cause} (h : dataFault s.cfg .read ea n = some cause)
    (put : BitVec (8 * n) → State → State) : load i n ea put s = .next (s.trap cause ea i.ilen) := by
  unfold load; rw [h]; rfl

theorem load_of_ok {n : Nat} {ea : Word} (h : dataFault s.cfg .read ea n = none)
    (put : BitVec (8 * n) → State → State) :
    load i n ea put s = retire i (put (s.memRead ea n).1 (s.memRead ea n).2) := by
  unfold load; rw [h]

theorem store_of_fault {n : Nat} {ea : Word} {cause : Cause} (h : dataFault s.cfg .write ea n = some cause)
    (v : BitVec (8 * n)) : store i n ea v s = .next (s.trap cause ea i.ilen) := by
  unfold store; rw [h]; rfl

theorem store_of_ok {n : Nat} {ea : Word} (h : dataFault s.cfg .write ea n = none) (v : BitVec (8 * n)) :
    store i n ea v s = .next ((s.memWrite ea n v).afterPc (s.pcAfter i.ilen)) := by
  unfold store; rw [h]
  simp [retire, State.pcAfter, ← State.afterPc_eq]

theorem loadX_of_ok (h : i.wellFormed s.cfg = true) {n : Nat} {ea : Word} (hf : dataFault s.cfg .read ea n = none)
    (sgn : Bool) (rd : Reg) :
    loadX i n sgn rd ea s = .next ((s.memRead ea n).2.afterX rd
      (if sgn then (s.memRead ea n).1.signExtend 64 else (s.memRead ea n).1.setWidth 64) i.ilen) := by
  unfold loadX; rw [legal_of_wf i s h, load_of_ok i s hf, retire_writeX]

theorem storeX_of_ok (h : i.wellFormed s.cfg = true) {n : Nat} {ea : Word} (hf : dataFault s.cfg .write ea n = none)
    (rs2 : Reg) :
    storeX i n rs2 ea s =
      .next ((s.memWrite ea n ((s.readX rs2).setWidth (8 * n))).afterPc (s.pcAfter i.ilen)) := by
  unfold storeX; rw [legal_of_wf i s h, store_of_ok i s hf]

/-! ### Atomics -/

theorem loadReserved_of_fault {n : Nat} {rs1 : Reg} {cause : Cause}
    (h : atomicFault s.cfg .read (s.readX rs1) n = some cause) (rd : Reg) :
    loadReserved i n rd rs1 s = .next (s.trap cause (s.readX rs1) i.ilen) := by
  simp only [loadReserved, h]; rfl

theorem loadReserved_of_ok {n : Nat} {rs1 : Reg} (h : atomicFault s.cfg .read (s.readX rs1) n = none) (rd : Reg) :
    loadReserved i n rd rs1 s = .next
      { (s.memRead (s.readX rs1) n).2.afterX rd ((s.memRead (s.readX rs1) n).1.signExtend 64) i.ilen with
        reservation := some (reserve s.cfg (s.readX rs1) n) } := by
  simp only [loadReserved, h, retire_writeX]
  simp [State.afterX, State.afterLink, State.pcAfter]

theorem storeConditional_of_fault {n : Nat} {rs1 : Reg} {cause : Cause}
    (h : atomicFault s.cfg .write (s.readX rs1) n = some cause) (rd rs2 : Reg) :
    storeConditional i n rd rs1 rs2 s = .next (s.trap cause (s.readX rs1) i.ilen) := by
  simp only [storeConditional, h]; rfl

theorem State.scMayFail_snd (ea : Word) (n : Nat) :
    (s.scMayFail ea n).2 = { s with draws := (s.scMayFail ea n).2.draws } := by
  unfold State.scMayFail; split <;> rfl

/-- Where the environment never fails an SC, a reservation that covers its bytes decides. -/
theorem State.scSucceeds_never (h : s.cfg.scMayFail = .never) (ea : Word) (n : Nat) :
    s.scSucceeds ea n = s.reserved ea n ∧ (s.scMayFail ea n).2 = s := by
  unfold State.scSucceeds State.scMayFail; rw [h]; simp

/-- The guarantee of R346: the SC that must succeed does, if a reservation covers its bytes. -/
theorem State.scSucceeds_of_must {ea : Word} {n : Nat} (h : s.scMustSucceed ea n = true) :
    s.scSucceeds ea n = s.reserved ea n := by
  unfold State.scSucceeds State.scMayFail; split <;> simp [h]

/-- An SC that passes its checks stores and answers 0, or stores nothing and answers `SC_FAIL_CODE`. -/
theorem storeConditional_of_ok {n : Nat} {rs1 : Reg} (h : atomicFault s.cfg .write (s.readX rs1) n = none)
    (rd rs2 : Reg) :
    storeConditional i n rd rs1 rs2 s = .next
      (if s.scSucceeds (s.readX rs1) n = true then
        { ((s.scMayFail (s.readX rs1) n).2.memWrite (s.readX rs1) n ((s.readX rs2).setWidth (8 * n))).afterX rd 0#64
            i.ilen with
          reservation := none }
      else { (s.scMayFail (s.readX rs1) n).2.afterX rd s.cfg.scFailCode i.ilen with reservation := none }) := by
  simp only [storeConditional, h, retire_writeX]
  split <;> simp [State.afterX, State.afterLink, State.pcAfter]

/-- The bytes of an access inside one granule, which does not wrap, make an AMO there one operation. -/
theorem AtomicGranule.holds_iff {g : AtomicGranule} {c : Config} {ea n : Nat} (hb : g.base ≤ ea) (he : ea < 2 ^ c.xlen) :
    g.holds c ea n = true ↔ ea + n ≤ g.base + g.size ∧ (ea - g.base) % g.bytes + n ≤ g.bytes := by
  have hd : c.distance g.base ea = ea - g.base := by
    unfold Config.distance
    rw [Nat.mod_eq_of_lt (lt_of_le_of_lt hb he), show ea + 2 ^ c.xlen - g.base = ea - g.base + 2 ^ c.xlen by omega,
      Nat.add_mod_right, Nat.mod_eq_of_lt (by omega)]
  unfold AtomicGranule.holds
  simp only [hd, Bool.and_eq_true, decide_eq_true_eq]
  omega

/-- What is indivisible is one operation. -/
theorem State.operations_of_indivisible {ea : Word} {n : Nat} {whole : Bool}
    (h : (whole || oneOperation s.cfg ea n) = true) : s.operations ea n whole = [List.range n] := by
  unfold State.operations; simp only [h, if_true]

theorem amo_of_fault {n : Nat} {rs1 : Reg} {cause : Cause}
    (h : atomicFault s.cfg .readWrite (s.readX rs1) n = some cause)
    (op : BitVec (8 * n) → BitVec (8 * n) → BitVec (8 * n)) (rd rs2 : Reg) :
    amo i n op rd rs1 rs2 s = .next (s.trap cause (s.readX rs1) i.ilen) := by
  simp only [amo, h]; rfl

theorem amo_of_ok {n : Nat} {rs1 : Reg} (h : atomicFault s.cfg .readWrite (s.readX rs1) n = none)
    (op : BitVec (8 * n) → BitVec (8 * n) → BitVec (8 * n)) (rd rs2 : Reg) :
    let ea := s.readX rs1
    let r := s.memRead ea n (amoWhole s.cfg ea n)
    amo i n op rd rs1 rs2 s = .next
      ((r.2.memWrite ea n (op r.1 ((s.readX rs2).setWidth (8 * n))) (amoWhole s.cfg ea n)).afterX rd
        (r.1.signExtend 64) i.ilen) := by
  simp only [amo, h, retire_writeX]

/-! ### CSRs -/

theorem csrOp_of_absent {csr : BitVec 12} (h : csrAt s.cfg csr = none) (rd : Reg) (reads writes : Bool) (src : Word)
    (f : Word → Word → Word) :
    csrOp i rd csr reads writes src f s = .next (s.trap .illegalInstruction (encode i).bits i.ilen) := by
  unfold csrOp; rw [h]; rfl

theorem csrOp_of_read_only {csr : BitVec 12} {r : Csr} (h : csrAt s.cfg csr = some r) {writes : Bool}
    (hw : (writes && r.readOnly) = true) (rd : Reg) (reads : Bool) (src : Word) (f : Word → Word → Word) :
    csrOp i rd csr reads writes src f s = .next (s.trap .illegalInstruction (encode i).bits i.ilen) := by
  unfold csrOp; rw [h]; simp only [hw]; rfl

/-- A counter read changes at most that counter and the draw counter. -/
theorem State.counter_snd (n : Nat) :
    (s.counter n).2 =
      { s with cycle := (s.counter n).2.cycle, time := (s.counter n).2.time, draws := (s.counter n).2.draws } := by
  unfold State.counter; split <;> rfl

theorem State.csrRead_snd (r : Csr) :
    (s.csrRead r).2 =
      { s with cycle := (s.csrRead r).2.cycle, time := (s.csrRead r).2.time, draws := (s.csrRead r).2.draws } := by
  cases r with
  | fflags => rfl
  | frm => rfl
  | fcsr => rfl
  | counter n => exact s.counter_snd n
  | counterHigh n => exact s.counter_snd n

/-- A CSR write changes nothing but `fcsr`. -/
theorem State.csrWrite_eq (r : Csr) (v : Word) : s.csrWrite r v = { s with fcsr := (s.csrWrite r v).fcsr } := by
  cases r <;> rfl

/-- A CSR instruction that is not illegal completes; it may change `x[rd]`, `fcsr`, `cycle`, `time` and the draw
counter. -/
theorem csrOp_of_ok {csr : BitVec 12} {r : Csr} (h : csrAt s.cfg csr = some r) {writes : Bool}
    (hw : (writes && r.readOnly) = false) (rd : Reg) (reads : Bool) (src : Word) (f : Word → Word → Word) :
    csrOp i rd csr reads writes src f s = .next
      (let old := if reads then (s.csrRead r).1 else 0#64
       let s1 := if reads then (s.csrRead r).2 else s
       let s2 := if writes then s1.csrWrite r (f old src) else s1
       if reads then s2.afterX rd old i.ilen else s2.afterPc (s.pcAfter i.ilen)) := by
  unfold csrOp; rw [h]; simp only [hw]
  cases reads with
  | true => simp only [if_true, Bool.false_eq_true, if_false, retire_writeX]
  | false =>
    cases writes with
    | false => rfl
    | true =>
      simp only [if_true, Bool.false_eq_true, if_false, retire_eq]
      rw [State.csrWrite_eq]; rfl

/-! ### Floating point -/

theorem withRounding_of_some (h : i.wellFormed s.cfg = true) {rm : BitVec 3} {m : Rounding}
    (hm : s.rounding rm = some m) (body : Rounding → Result) : withRounding i rm s body = body m := by
  unfold withRounding; rw [legal_of_wf i s h, hm]

/-- A reserved rounding mode raises, whether the instruction is present or not. -/
theorem withRounding_of_none {rm : BitVec 3} (hm : s.rounding rm = none) (body : Rounding → Result) :
    withRounding i rm s body = .next (s.trap .illegalInstruction (encode i).bits i.ilen) := by
  unfold withRounding; rw [hm]
  cases hw : i.wellFormed s.cfg with
  | true => rw [legal_of_wf i s hw]; rfl
  | false => rw [legal_of_not_wf i s hw]

theorem fpResult_eq (F : Fmt) (rd : Reg) (r : BitVec F.width × FFlags) :
    fpResult i F rd r s = .next ((s.afterF rd (box s.cfg F r.1) i.ilen).withFlags r.2) := by
  unfold fpResult; rw [State.accrue_eq]; rfl

theorem intResult_eq (rd : Reg) (v : Word) (fl : FFlags) :
    intResult i rd v fl s = .next ((s.afterX rd v i.ilen).withFlags fl) := by
  unfold intResult State.afterX
  rw [State.accrue_eq, ← State.retireTo_writeX]
  simp [retire, State.withFlags, State.retireTo, State.pcAfter]

theorem fpLoad_of_ok (h : i.wellFormed s.cfg = true) (F : Fmt) {ea : Word}
    (hf : dataFault s.cfg .read ea (F.width / 8) = none) (rd : Reg) :
    fpLoad i F rd ea s = .next ((s.memRead ea (F.width / 8)).2.afterF rd
      (box s.cfg F ((s.memRead ea (F.width / 8)).1.setWidth F.width)) i.ilen) := by
  unfold fpLoad; rw [legal_of_wf i s h, load_of_ok i s hf]
  unfold State.writeFp
  rw [State.memRead_cfg]; rfl

theorem fpStore_of_ok (h : i.wellFormed s.cfg = true) (F : Fmt) {ea : Word}
    (hf : dataFault s.cfg .write ea (F.width / 8) = none) (rs2 : Reg) :
    fpStore i F rs2 ea s =
      .next ((s.memWrite ea (F.width / 8) ((s.readF rs2).setWidth (8 * (F.width / 8)))).afterPc
        (s.pcAfter i.ilen)) := by
  unfold fpStore; rw [legal_of_wf i s h, store_of_ok i s hf]
  have hr : (s.rawFp F rs2).setWidth (8 * (F.width / 8)) = (s.readF rs2).setWidth (8 * (F.width / 8)) := by
    cases F <;> rfl
  rw [hr]

/-! ### The return from an exception -/

theorem resumeAt_of_aligned {s : State} {target : Word} (h : s.cfg.aligned target = true) :
    resumeAt target s = .next { s with pc := target, status := .running, loop := none } := by
  unfold resumeAt; rw [if_pos h]

theorem resumeAt_of_misaligned {s : State} {target : Word} (h : s.cfg.aligned target = false) :
    resumeAt target s = .refused .misalignedResume := by
  unfold resumeAt; rw [if_neg (by simp [h])]

/-! ### Reservations (44_a.md R333, R334) -/

/-- An address `i` above another lies `i` above it in the circular address space. -/
theorem Config.distance_add (c : Config) (a i : Nat) :
    c.distance a ((a + i) % 2 ^ c.xlen) = i % 2 ^ c.xlen := by
  unfold Config.distance
  generalize hX : 2 ^ c.xlen = X
  have hpos : 0 < X := hX ▸ Nat.two_pow_pos _
  have h1 := Nat.mod_add_div (a + i) X
  have h2 := Nat.mod_add_div a X
  have hlt := Nat.mod_lt a hpos
  generalize (a + i) % X = r at *
  generalize (a + i) / X = q at *
  generalize a % X = b at *
  generalize a / X = p at *
  have h3 : r + X - b + X * q = i + X * (p + 1) := by rw [Nat.mul_add]; omega
  have h4 := congrArg (· % X) h3
  simpa [Nat.add_mul_mod_self_left] using h4

/-- The span holds an address exactly where it is that of one of its bytes. -/
theorem Span.holds_iff (p : Span) (c : Config) (a : Nat) :
    p.holds c a = true ↔ ∃ k < p.size, a % 2 ^ c.xlen = (p.base + k) % 2 ^ c.xlen := by
  have hpos : 0 < 2 ^ c.xlen := Nat.two_pow_pos _
  unfold Span.holds
  rw [decide_eq_true_iff]
  constructor
  · refine fun h => ⟨_, h, ?_⟩
    have hb := Nat.mod_lt p.base hpos
    unfold Config.distance
    have hd := Nat.mod_add_div p.base (2 ^ c.xlen)
    rw [Nat.add_mod_mod, show p.base + (a + 2 ^ c.xlen - p.base % 2 ^ c.xlen) =
      a + 2 ^ c.xlen * (1 + p.base / 2 ^ c.xlen) by rw [Nat.mul_add]; omega, Nat.add_mul_mod_self_left]
  · rintro ⟨k, hk, h⟩
    have hd : c.distance p.base a = c.distance p.base ((p.base + k) % 2 ^ c.xlen) := by
      rw [← h]
      have hb := Nat.mod_lt p.base hpos
      unfold Config.distance
      rw [Nat.add_sub_assoc hb.le, Nat.add_sub_assoc hb.le, Nat.mod_add_mod]
    rw [hd, Config.distance_add]
    exact lt_of_le_of_lt (Nat.mod_le _ _) hk

/-- The set an LR registers holds the bytes it read, whatever `RESERVATION_SET` adds. -/
theorem covers_reserve (c : Config) (ea : Word) (n : Nat) : (reserve c ea n).covers c ea n = true := by
  unfold Reservation.covers
  rw [List.all_eq_true]
  intro a ha
  obtain ⟨i, hi, rfl⟩ := List.mem_map.1 ha
  unfold reserve Reservation.over
  simp only [List.any_cons, Bool.or_eq_true]
  left
  unfold Span.holds
  rw [Config.distance_add]
  simpa using lt_of_le_of_lt (Nat.mod_le _ _) (List.mem_range.1 hi)

/-! ### What a step adds to an instruction (44_a.md R346) -/

/-- Following the LR/SC loop changes no field but the model's own two, and no stop. -/
theorem followLoop_cases (i : Instr) (s : State) (r : Result) :
    followLoop i s r = r ∨
      ∃ t l, r = .next t ∧ s.cfg.scMayFail = .oracle ∧ t.status = .running ∧
        followLoop i s r = .next { t with loop := l, draws := t.draws + 1 } := by
  unfold followLoop
  cases r with
  | next t =>
    simp only
    split
    · rename_i h; exact .inr ⟨t, _, rfl, h.1, h.2, rfl⟩
    · exact .inl rfl
  | fault e => exact .inl rfl
  | refused e => exact .inl rfl

/-- Where the environment never fails an SC, a step adds nothing to an instruction. -/
theorem followLoop_never (i : Instr) {s : State} (h : s.cfg.scMayFail = .never) (r : Result) : followLoop i s r = r := by
  unfold followLoop; cases r <;> simp [h]

end Sys2Proof.Machine
end

