-- ==== Sys2Proof/Laws/Xlen.lean ====
section
/-! SUPPORT. XLEN-bit values in 64-bit cells as integers modulo 2^XLEN (00_scope.md R8, R9). -/

namespace Sys2Proof

theorem Config.xlen_cases (c : Config) : (c.is32 = true ∧ c.xlen = 32) ∨ (c.is32 = false ∧ c.xlen = 64) := by
  unfold Config.xlen; cases c.is32 <;> simp

theorem Config.truncate_toNat (c : Config) (v : Word) : (c.truncate v).toNat = v.toNat % 2 ^ c.xlen := by
  rcases c.xlen_cases with ⟨h, hx⟩ | ⟨h, hx⟩ <;> unfold Config.truncate <;> rw [h, hx]
  · simp only [if_true, BitVec.toNat_setWidth]; omega
  · simp only [Bool.false_eq_true, if_false]; omega

/-- Two values that agree modulo 2^XLEN truncate to the same cell. -/
theorem Config.truncate_eq_iff (c : Config) (a b : Word) :
    c.truncate a = c.truncate b ↔ a.toNat % 2 ^ c.xlen = b.toNat % 2 ^ c.xlen := by
  rw [← BitVec.toNat_inj, c.truncate_toNat, c.truncate_toNat]

@[simp] theorem Config.truncate_truncate (c : Config) (v : Word) : c.truncate (c.truncate v) = c.truncate v := by
  rw [Config.truncate_eq_iff, Config.truncate_toNat, Nat.mod_mod]

@[simp] theorem Config.fitsX_truncate (c : Config) (v : Word) : c.fitsX (c.truncate v) = true := by
  simp [Config.fitsX]

theorem Config.truncate_zero (c : Config) : c.truncate 0#64 = 0#64 := by
  unfold Config.truncate; split <;> rfl

theorem Config.addX_toNat (c : Config) (a b : Word) : (c.addX a b).toNat = (a.toNat + b.toNat) % 2 ^ c.xlen := by
  rw [Config.addX, c.truncate_toNat, BitVec.toNat_add]
  rcases c.xlen_cases with ⟨_, hx⟩ | ⟨_, hx⟩ <;> rw [hx] <;> omega

/-- Truncation sees an integer only modulo 2^XLEN. -/
theorem Config.truncate_ofInt_congr (c : Config) {a b : Int} (h : a % 2 ^ c.xlen = b % 2 ^ c.xlen) :
    c.truncate (BitVec.ofInt 64 a) = c.truncate (BitVec.ofInt 64 b) := by
  rw [Config.truncate_eq_iff]
  rcases c.xlen_cases with ⟨_, hx⟩ | ⟨_, hx⟩ <;> rw [hx] at h ⊢ <;>
    simp only [BitVec.toNat_ofInt] <;> omega

/-- The integer of a register, modulo 2^XLEN, is its cell. -/
theorem Machine.State.intX_emod (s : Machine.State) (r : Reg) : s.intX r % 2 ^ s.cfg.xlen = s.natX r := by
  unfold Machine.State.intX Machine.State.natX
  have h := Int.bmod_emod (x := ((s.readX r).toNat : Int)) (m := 2 ^ s.cfg.xlen)
  push_cast at h ⊢
  exact h

/-- An XLEN-bit operation, at 32 and at 64 bits. -/
theorem Config.atXlen_32 {c : Config} (h : c.is32 = true) (op : (w : Nat) → BitVec w → BitVec w → BitVec w)
    (a b : Word) : c.atXlen op a b = (op 32 (a.setWidth 32) (b.setWidth 32)).setWidth 64 := by
  unfold Config.atXlen; rw [if_pos h]

theorem Config.atXlen_64 {c : Config} (h : c.is32 = false) (op : (w : Nat) → BitVec w → BitVec w → BitVec w)
    (a b : Word) : c.atXlen op a b = op 64 a b := by
  unfold Config.atXlen; rw [if_neg (by simp [h])]

@[simp] theorem Config.fitsX_atXlen (c : Config) (op : (w : Nat) → BitVec w → BitVec w → BitVec w) (a b : Word) :
    c.fitsX (c.atXlen op a b) = true := by
  unfold Config.fitsX Config.truncate Config.atXlen
  cases c.is32 <;> simp

/-- Only the value modulo 2^XLEN reaches a register. -/
theorem Machine.State.afterX_congr (s : Machine.State) (rd : Reg) {v w : Word}
    (h : s.cfg.truncate v = s.cfg.truncate w) (len : Nat) : s.afterX rd v len = s.afterX rd w len := by
  unfold Machine.State.afterX Machine.State.afterLink; rw [h]

end Sys2Proof
end

