-- ==== Sys2Proof/Laws/Alu.lean ====
section
/-! SUPPORT. The integer computations as exact integer results narrowed to the width: what a result statement says of an
instruction reduces to one of these at 32 and at 64 bits. -/

namespace Sys2Proof.Machine

/-! ### Registers and immediates as integers -/

theorem xlen_of_32 {c : Config} (h : c.is32 = true) : c.xlen = 32 := by simp [Config.xlen, h]

theorem xlen_of_64 {c : Config} (h : c.is32 = false) : c.xlen = 64 := by simp [Config.xlen, h]

theorem intX_32 (s : State) (h : s.cfg.is32 = true) (r : Reg) : s.intX r = ((s.readX r).setWidth 32).toInt := by
  unfold State.intX; rw [xlen_of_32 h, BitVec.toInt_setWidth]

theorem intX_64 (s : State) (h : s.cfg.is32 = false) (r : Reg) : s.intX r = (s.readX r).toInt := by
  unfold State.intX; rw [xlen_of_64 h, BitVec.toInt_eq_toNat_bmod]

theorem natX_32 (s : State) (h : s.cfg.is32 = true) (r : Reg) : s.natX r = ((s.readX r).setWidth 32).toNat := by
  unfold State.natX; rw [xlen_of_32 h, BitVec.toNat_setWidth]

theorem natX_64 (s : State) (h : s.cfg.is32 = false) (r : Reg) : s.natX r = (s.readX r).toNat := by
  unfold State.natX; rw [xlen_of_64 h]; exact Nat.mod_eq_of_lt (BitVec.isLt _)

theorem intW_eq (s : State) (r : Reg) : s.intW r = ((s.readX r).setWidth 32).toInt := by
  unfold State.intW; rw [BitVec.toInt_setWidth]

theorem natW_eq (s : State) (r : Reg) : s.natW r = ((s.readX r).setWidth 32).toNat := by
  unfold State.natW; rw [BitVec.toNat_setWidth]

theorem toInt_sext_64 (c : Config) (h : c.is32 = false) {n : Nat} (hn : n ≤ 64) (v : BitVec n) :
    (c.sext v).toInt = v.toInt := by
  unfold Config.sext Config.truncate; simp only [h, Bool.false_eq_true, if_false]
  exact BitVec.toInt_signExtend_of_le hn

/-- The low 32 bits of an immediate, whatever XLEN is. -/
theorem toInt_sext_32 (c : Config) {n : Nat} (hn : n ≤ 32) (v : BitVec n) :
    ((c.sext v).setWidth 32).toInt = v.toInt := by
  have hs : (c.sext v).setWidth 32 = (v.signExtend 64).setWidth 32 := by
    unfold Config.sext Config.truncate; cases c.is32 <;> simp
  have h2 := BitVec.toInt_eq_toNat_bmod (v.signExtend 64)
  rw [BitVec.toInt_signExtend_of_le (by omega)] at h2
  have h3 := BitVec.toInt_lt (x := v)
  have h4 := BitVec.le_toInt (x := v)
  have p : (2 : Int) ^ (n - 1) ≤ 2 ^ 31 := by exact_mod_cast Nat.pow_le_pow_right (by decide) (by omega)
  rw [hs, BitVec.toInt_setWidth]
  simp only [Int.bmod_def] at h2 ⊢
  split_ifs at * <;> omega

theorem toInt_append_zeros {n : Nat} (k : Nat) (imm : BitVec n) : (imm ++ 0#k).toInt = imm.toInt * 2 ^ k := by
  rcases n with _ | n
  · have : imm = 0#0 := BitVec.of_length_zero; subst this; simp [BitVec.toInt_eq_toNat_bmod]
  rw [BitVec.toInt_eq_toNat_cond, BitVec.toInt_eq_toNat_cond, BitVec.toNat_append]
  have e : 2 ^ (n + 1 + k) = 2 ^ (n+1) * 2 ^ k := pow_add _ _ _
  simp only [BitVec.toNat_ofNat, Nat.zero_mod, Nat.or_zero, Nat.shiftLeft_eq]
  rw [e]
  have hp : 0 < 2 ^ k := by positivity
  have : (2 * (imm.toNat * 2 ^ k) < 2 ^ (n+1) * 2 ^ k) ↔ (2 * imm.toNat < 2 ^ (n+1)) := by
    rw [← mul_assoc]; exact Nat.mul_lt_mul_right hp
  simp only [this]
  split_ifs
  · push_cast; ring
  · push_cast; ring

/-- A scaled compressed offset is a small natural number, at either width. -/
theorem scaled_values {n : Nat} (k : Nat) (imm : BitVec n) (h : n + k ≤ 31) :
    (scaled k imm).toInt = ((imm.toNat * 2 ^ k : Nat) : Int) ∧
      ((scaled k imm).setWidth 32).toInt = ((imm.toNat * 2 ^ k : Nat) : Int) ∧
      (scaled k imm).toNat = imm.toNat * 2 ^ k := by
  have hb : (imm ++ 0#k).toNat = imm.toNat * 2 ^ k := by
    rw [BitVec.toNat_append]; simp [Nat.shiftLeft_eq]
  have hl : imm.toNat * 2 ^ k < 2 ^ 31 := by
    calc imm.toNat * 2 ^ k < 2 ^ n * 2 ^ k := by apply Nat.mul_lt_mul_of_pos_right imm.isLt (by positivity)
      _ = 2 ^ (n + k) := by rw [pow_add]
      _ ≤ 2 ^ 31 := Nat.pow_le_pow_right (by decide) h
  have hz : (scaled k imm : Word).toNat = imm.toNat * 2 ^ k := by
    unfold scaled zext; rw [BitVec.toNat_setWidth, hb]; omega
  refine ⟨?_, ?_, hz⟩
  · rw [BitVec.toInt_eq_toNat_bmod, hz, Int.bmod_def]; norm_cast; split_ifs <;> omega
  · rw [BitVec.toInt_setWidth, hz, Int.bmod_def]; norm_cast; split_ifs <;> omega

/-! ### Computations: an operation at XLEN bits from the operation at 32 and at 64 bits -/

/-- An XLEN-bit result from its value at each width. -/
theorem truncate_atXlen (c : Config) {op : (w : Nat) → BitVec w → BitVec w → BitVec w} {a b : Word} {v : Int}
    (h32 : c.is32 = true → op 32 (a.setWidth 32) (b.setWidth 32) = BitVec.ofInt 32 v)
    (h64 : c.is32 = false → op 64 a b = BitVec.ofInt 64 v) :
    c.truncate (c.atXlen op a b) = c.truncate (BitVec.ofInt 64 v) := by
  rcases c.xlen_cases with ⟨h, hx⟩ | ⟨h, hx⟩
  · rw [Config.atXlen_32 h, h32 h, Config.truncate_eq_iff, hx]
    simp only [BitVec.toNat_setWidth, BitVec.toNat_ofInt]; omega
  · rw [Config.atXlen_64 h, h64 h]

/-- An XLEN-bit test from its meaning at each width. -/
theorem testXlen_iff (c : Config) {t : (w : Nat) → BitVec w → BitVec w → Bool} {a b : Word} {P : Prop}
    (h32 : c.is32 = true → (t 32 (a.setWidth 32) (b.setWidth 32) = true ↔ P))
    (h64 : c.is32 = false → (t 64 a b = true ↔ P)) : c.testXlen t a b = true ↔ P := by
  unfold Config.testXlen
  cases h : c.is32 with
  | true => simpa using h32 h
  | false => simpa using h64 h

section Computations

variable {w : Nat} (a b : BitVec w)

theorem aluAdd_ofInt : aluAdd w a b = BitVec.ofInt w (a.toInt + b.toInt) := by
  simp [aluAdd, BitVec.ofInt_add]

theorem aluSub_ofInt : aluSub w a b = BitVec.ofInt w (a.toInt - b.toInt) := by
  apply BitVec.eq_of_toInt_eq; simp [aluSub, BitVec.toInt_sub]

theorem aluSlt_ofInt : aluSlt w a b = BitVec.ofInt w (if a.toInt < b.toInt then 1 else 0) := by
  simp [aluSlt, BitVec.slt]; split <;> rfl

theorem aluSltu_ofInt : aluSltu w a b = BitVec.ofInt w (if a.toNat < b.toNat then 1 else 0) := by
  simp [aluSltu, BitVec.ult]; split <;> rfl

theorem aluSll_ofInt : aluSll w a b = BitVec.ofInt w (a.toInt * 2 ^ (b.toNat % w)) := by
  rw [aluSll, BitVec.ofInt_mul, BitVec.ofInt_toInt, BitVec.shiftLeft_eq_mul_twoPow]
  congr 1
  apply BitVec.eq_of_toNat_eq
  rw [BitVec.toNat_twoPow, BitVec.toNat_ofInt]
  have : ((2:Int)^(b.toNat % w)) % ((2^w : Nat) : Int) = ((2^(b.toNat % w) % 2^w : Nat) : Int) := by push_cast; rfl
  rw [this]; rfl

theorem aluSrl_ofInt : aluSrl w a b = BitVec.ofInt w (a.toNat / 2 ^ (b.toNat % w) : Nat) := by
  apply BitVec.eq_of_toNat_eq
  simp [aluSrl, Nat.shiftRight_eq_div_pow]
  exact (Nat.mod_eq_of_lt (lt_of_le_of_lt (Nat.div_le_self _ _) a.isLt)).symm

theorem aluSra_ofInt : aluSra w a b = BitVec.ofInt w (a.toInt / 2 ^ (b.toNat % w)) := by
  apply BitVec.eq_of_toInt_eq
  unfold aluSra
  generalize b.toNat % w = k
  rw [BitVec.toInt_ofInt, BitVec.toInt_sshiftRight, Int.shiftRight_eq_div_pow]
  symm
  rcases w with _ | w
  · simp [BitVec.of_length_zero (x := a)]
  · have h3 := BitVec.toInt_lt (x := a); have h4 := BitVec.le_toInt (x := a)
    simp only [Nat.add_sub_cancel] at h3 h4
    have hk : (0:Int) < 2 ^ k := by positivity
    have e1 : a.toInt / 2 ^ k < 2 ^ w := by
      apply Int.ediv_lt_of_lt_mul hk
      nlinarith [show (0:Int) < 2 ^ w by positivity]
    have e2 : - 2 ^ w ≤ a.toInt / 2 ^ k := by
      apply Int.le_ediv_of_mul_le hk
      nlinarith [show (0:Int) < 2 ^ w by positivity]
    have : ((2 ^ (w+1) : Nat) : Int) = 2 * 2 ^ w := by push_cast; ring
    push_cast
    apply Int.bmod_eq_of_le_mul_two <;> push_cast <;> rw [pow_succ] <;> omega

theorem aluMul_ofInt : aluMul w a b = BitVec.ofInt w (a.toInt * b.toInt) := by simp [aluMul, BitVec.ofInt_mul]

theorem aluMulhu_ofInt : aluMulhu w a b = BitVec.ofInt w ((a.toNat * b.toNat / 2 ^ w : Nat) : Int) := by
  rw [aluMulhu, BitVec.ofInt_natCast]

theorem allOnes_ofInt (w : Nat) : BitVec.allOnes w = BitVec.ofInt w (-1) := by
  rw [BitVec.ofInt_neg]; simp [BitVec.neg_one_eq_allOnes]

theorem aluDiv_ofInt : aluDiv w a b = BitVec.ofInt w (if b.toInt = 0 then -1 else Int.tdiv a.toInt b.toInt) := by
  unfold aluDiv
  by_cases h : b = 0#w
  · subst h; simp [allOnes_ofInt]
  · have : b.toInt ≠ 0 := fun h' => h (BitVec.eq_of_toInt_eq (by simpa using h'))
    rw [if_neg h, if_neg this]
    apply BitVec.eq_of_toInt_eq; rw [BitVec.toInt_sdiv, BitVec.toInt_ofInt]

theorem aluRem_ofInt : aluRem w a b = BitVec.ofInt w (if b.toInt = 0 then a.toInt else Int.tmod a.toInt b.toInt) := by
  unfold aluRem
  by_cases h : b = 0#w
  · subst h; simp
  · have : b.toInt ≠ 0 := fun h' => h (BitVec.eq_of_toInt_eq (by simpa using h'))
    rw [if_neg h, if_neg this, ← BitVec.toInt_srem, BitVec.ofInt_toInt]

theorem aluDivu_ofInt :
    aluDivu w a b = BitVec.ofInt w (if (b.toNat : Int) = 0 then -1 else Int.tdiv a.toNat b.toNat) := by
  unfold aluDivu
  by_cases h : b = 0#w
  · subst h; simp [allOnes_ofInt]
  · have : (b.toNat : Int) ≠ 0 := fun h' => h (BitVec.eq_of_toNat_eq (by simpa using h'))
    rw [if_neg h, if_neg this]
    apply BitVec.eq_of_toNat_eq
    have e : Int.tdiv (a.toNat : Int) b.toNat = ((a.toNat / b.toNat : Nat) : Int) := rfl
    rw [e]; simp
    exact (Nat.mod_eq_of_lt (lt_of_le_of_lt (Nat.div_le_self _ _) a.isLt)).symm

theorem aluRemu_ofInt :
    aluRemu w a b = BitVec.ofInt w (if (b.toNat : Int) = 0 then a.toNat else Int.tmod a.toNat b.toNat) := by
  unfold aluRemu
  by_cases h : b = 0#w
  · subst h; simp
  · have : (b.toNat : Int) ≠ 0 := fun h' => h (BitVec.eq_of_toNat_eq (by simpa using h'))
    rw [if_neg h, if_neg this]
    apply BitVec.eq_of_toNat_eq
    have e : Int.tmod (a.toNat : Int) b.toNat = ((a.toNat % b.toNat : Nat) : Int) := rfl
    rw [e]; simp
    exact (Nat.mod_eq_of_lt (lt_of_le_of_lt (Nat.mod_le _ _) a.isLt)).symm

end Computations

/-- Clearing bit 0 rounds down to an even value. -/
theorem clearBit0_eq (v : Word) : clearBit0 v = BitVec.ofNat 64 (v.toNat / 2 * 2) := by
  have : (BitVec.ofNat 64 (v.toNat / 2 * 2)) = (v >>> 1) <<< 1 := by
    apply BitVec.eq_of_toNat_eq; simp [Nat.shiftRight_eq_div_pow, Nat.shiftLeft_eq]
  rw [this]
  apply BitVec.eq_of_getLsbD_eq
  intro i hi
  unfold clearBit0
  rcases i with _ | i
  · simp
  · rw [BitVec.getLsbD_and, BitVec.getLsbD_not, BitVec.getLsbD_shiftLeft, BitVec.getLsbD_ushiftRight]
    have : (1#64).getLsbD (i+1) = false := by rw [BitVec.getLsbD_one]; simp
    rw [this]; simp [hi]; congr 1; omega

end Sys2Proof.Machine
end

