-- ==== Sys2Proof/Laws/Fetch.lean ====
section
/-! SUPPORT. What a fetch, the placing of an instruction, and a service leave of the state. -/

namespace Sys2Proof.Machine

/-- A main-memory byte with no older candidate is fetched as it is. -/
theorem State.fetchByte_plain (s : State) (a : Nat) (hio : isIo s.cfg a = false) (hs : ∀ c ∈ s.stale, c.1 ≠ a) :
    s.fetchByte a = (Memory.read s.memory a, s) := by
  have h : s.olderBytes a = [] := by
    have hn : s.stale.filter (fun c => c.1 == a) = [] := by
      rw [List.filter_eq_nil_iff]
      intro c hc
      simpa using hs c hc
    unfold State.olderBytes
    rw [hn]
    rfl
  unfold State.fetchByte
  simp [hio, h]

/-- Fetching a byte changes nothing but the draw counter. -/
theorem State.fetchByte_snd (s : State) (a : Nat) : ∃ d, (s.fetchByte a).2 = { s with draws := d } := by
  unfold State.fetchByte
  split
  · exact ⟨_, rfl⟩
  · split <;> exact ⟨_, rfl⟩

theorem State.fetchParcel_cases (s : State) (a : Word) :
    s.fetchParcel a = none ∨ ∃ h d, s.fetchParcel a = some (h, { s with draws := d }) := by
  unfold State.fetchParcel
  simp only
  split
  · obtain ⟨d, hd⟩ := s.fetchByte_snd (a.toNat % 2 ^ s.cfg.xlen)
    obtain ⟨d', hd'⟩ := State.fetchByte_snd { s with draws := d } ((a.toNat + 1) % 2 ^ s.cfg.xlen)
    exact .inr ⟨_, d', by rw [hd, hd']⟩
  · exact .inl rfl

/-- A fetch changes nothing but the draw counter and the note that the hart has fetched. -/
theorem State.fetch_cases (s : State) :
    (∃ p d, s.fetch = .fault p { s with launched := true, draws := d }) ∨
      ∃ k d, s.fetch = .code k { s with launched := true, draws := d } := by
  unfold State.fetch
  simp only
  split
  · exact .inl ⟨_, s.draws, rfl⟩
  · rcases State.fetchParcel_cases { s with launched := true } s.pc with h | ⟨p0, d, h⟩
    · rw [h]; exact .inl ⟨_, s.draws, rfl⟩
    · rw [h]
      simp only
      split
      · exact .inr ⟨_, _, rfl⟩
      · rcases State.fetchParcel_cases { s with launched := true, draws := d } (s.cfg.addX s.pc 2#64) with
          h | ⟨p1, d', h⟩
        · rw [h]; exact .inl ⟨_, _, rfl⟩
        · rw [h]; exact .inr ⟨_, _, rfl⟩

theorem State.placeByte_wf (s : State) (a : Nat) (b : Byte) (h : Memory.wf s.memory = true) :
    Memory.wf (s.placeByte a b).memory = true := Memory.wf_write a b h

/-- Placing an instruction keeps the canonical form. -/
theorem State.placeBytes_wf (s : State) (ea : Word) (bs : List Byte) (h : Memory.wf s.memory = true) :
    Memory.wf (s.placeBytes ea bs).memory = true := by
  unfold State.placeBytes
  generalize (byteAddrs s.cfg ea bs.length).zip bs = cells
  induction cells generalizing s with
  | nil => exact h
  | cons c rest ih => exact ih _ (s.placeByte_wf c.1 c.2 h)

/-- A service keeps the canonical form. -/
theorem State.serve_wf (s : State) (e : ServiceEffect) (h : Memory.wf s.memory = true) :
    Memory.wf (s.serve e).memory = true := State.writeCells_wf _ _ (by exact h)

/-- A service sets the state of the hart and writes its cells; the configuration, the output trace and the model's own
fields but the draw counter are kept. -/
theorem State.serve_eq (s : State) (e : ServiceEffect) :
    s.serve e =
      { s with
        x := e.x.map s.cfg.truncate
        f := e.f.map fun v => (v.setWidth s.cfg.flen).setWidth 128
        fcsr := e.fcsr
        cycle := e.cycle
        time := e.time
        instret := e.instret
        hpm := e.hpm
        reservation := s.servedReservation e
        memory := (s.writeCells (e.cells s.cfg)).memory
        stale := (s.writeCells (e.cells s.cfg)).stale
        draws := s.draws + 1 } := by
  have h : ∀ (t : State) (cells : List Host.Cell), t.memory = s.memory → t.stale = s.stale →
      t.writeCells cells =
        { t with memory := (s.writeCells cells).memory, stale := (s.writeCells cells).stale } := by
    intro t cells
    induction cells generalizing s t with
    | nil => intro hm hs; rw [show s.writeCells [] = s from rfl, ← hm, ← hs]; rfl
    | cons c rest ih =>
      intro hm hs
      have hk : (t.keepStale c.1 c.2).stale = (s.keepStale c.1 c.2).stale := by
        unfold State.keepStale; simp only [hm, hs]; split <;> simp [hs]
      rw [State.writeCells_cons, State.writeCells_cons, ih (s.writeMain c.1 c.2) (t.writeMain c.1 c.2)
        (by simp [hm]) (by simpa [State.writeMain] using hk)]
      simp
  exact h _ _ rfl rfl

/-- A service leaves the configuration and the output trace. -/
@[simp] theorem State.serve_cfg (s : State) (e : ServiceEffect) : (s.serve e).cfg = s.cfg := by rw [State.serve_eq]

@[simp] theorem State.serve_ioTrace (s : State) (e : ServiceEffect) : (s.serve e).ioTrace = s.ioTrace := by
  rw [State.serve_eq]

end Sys2Proof.Machine
end

