-- ==== Sys2Proof/Laws/Float.lean ====
section
/-! SUPPORT. The fields of a floating-point pattern under a change of sign, and the comparison of values. -/

namespace Sys2Proof.Machine

/-- `neg_F` inverts the sign bit and keeps every other bit (46_f.md R402). -/
theorem Fmt.negate_bits (F : Fmt) (b : BitVec F.width) :
    (F.negate b).msb = !b.msb ∧ ∀ k < F.width - 1, (F.negate b).getLsbD k = b.getLsbD k := by
  constructor
  · unfold Fmt.negate
    have : (BitVec.ofNat F.width (2 ^ (F.width - 1))).msb = true := by cases F <;> decide
    rw [BitVec.msb_xor, this]
    simp
  · intro k hk
    have : (BitVec.ofNat F.width (2 ^ (F.width - 1))).getLsbD k = false := by
      rw [BitVec.getLsbD_ofNat, Nat.testBit_two_pow]
      simp
      omega
    unfold Fmt.negate
    rw [BitVec.getLsbD_xor, this]
    simp

/-- `neg_F` keeps the exponent and fraction fields. -/
theorem Fmt.negate_fields (F : Fmt) (b : BitVec F.width) :
    (F.negate b).toNat % 2 ^ F.fracBits = b.toNat % 2 ^ F.fracBits ∧
      (F.negate b).toNat / 2 ^ F.fracBits % 2 ^ F.expBits = b.toNat / 2 ^ F.fracBits % 2 ^ F.expBits := by
  have field : ∀ p q : Nat, (BitVec.ofNat F.width (2 ^ (F.width - 1))).extractLsb' p q = 0#q →
      (F.negate b).toNat / 2 ^ p % 2 ^ q = b.toNat / 2 ^ p % 2 ^ q := by
    intro p q h
    have e : (F.negate b).extractLsb' p q = b.extractLsb' p q := by
      unfold Fmt.negate; rw [BitVec.extractLsb'_xor, h]; simp
    simpa [BitVec.extractLsb'_toNat, Nat.shiftRight_eq_div_pow] using congrArg BitVec.toNat e
  have h0 := field 0 F.fracBits (by cases F <;> decide)
  exact ⟨by simpa using h0, field F.fracBits F.expBits (by cases F <;> decide)⟩

/-- A negated operand is a NaN, and a signaling one, exactly when the operand is. -/
theorem Fmt.value_negate_nan (F : Fmt) (b : BitVec F.width) :
    (F.value (F.negate b)).isNaN = (F.value b).isNaN ∧
      (F.value (F.negate b)).isSignaling = (F.value b).isSignaling := by
  have h := F.negate_fields b
  unfold Fmt.value
  simp only [h.1, h.2]
  split_ifs <;> simp [FValue.isNaN, FValue.isSignaling]

/-- Two values are never below each other (46_f.md R441). -/
theorem FValue.lt_asymm (a b : FValue) (h : a.lt b = true) : b.lt a = false := by
  unfold FValue.lt at *
  rw [Bool.or_comm, min_comm b.exponent] at *
  split_ifs at * <;> simp_all <;> omega

/-- Rounding to a coarser grid: the truncated quotient or the next one. -/
theorem roundToGrid_coarser (rm : Rounding) (neg : Bool) (m : Nat) (e : Int) {d : Nat} (hd : 0 < d) :
    roundToGrid rm neg m e (e + d) =
      (if rm.up neg (m / 2 ^ d % 2 == 1) (m % 2 ^ d == 0) (compare (2 * (m % 2 ^ d)) (2 ^ d)) then m / 2 ^ d + 1
        else m / 2 ^ d, m % 2 ^ d != 0) := by
  have hs : ((e + (d : Int)) - e).toNat = d := by omega
  unfold roundToGrid
  rw [if_neg (by omega)]
  simp only [hs]

end Sys2Proof.Machine
end

