-- ==== Sys2Proof/Tests/Slice0.lean ====
section
/-! SUPPORT. Tests. Decode: a word of every row, its operand bits laid out by the row's encoding in opcode_table.json.
One step: rows of the spec's vectors (95_test_vectors.md, 96_test_vectors_fp.md), expected values as printed there.
Witnesses: for every statement with hypotheses a state and operands that meet them. -/

namespace Sys2Proof.Tests

open Sys2Proof.Machine

/-! ### Configurations and states -/

def cfg32 : Config := { Config.reset with base := .rv32i }
def cfg32e : Config := { Config.reset with base := .rv32e }

/-- The reset configuration with other extensions. -/
def withExt (f : Extensions → Extensions) : Config := { Config.reset with ext := f Config.reset.ext }

def cfgNoC : Config := withExt fun e => { e with c := false }

/-- A device at 0x1000, of 16 bytes. -/
def device : Region :=
  { base := 0x1000, size := 16, kind := .io, fetch := false, read := true, write := true, atomic := true,
    widths := [1, 2, 4, 8], eventual := false }

def cfgIo : Config := { Config.reset with memmap := [Config.ram, device] }

/-- Zam, and one of the three effects of a misaligned access. -/
def cfgZam (m : Misaligned) : Config := { withExt (fun e => { e with zam := true }) with misaligned := m }

/-- Zam, and a device of two granules of 8 bytes. -/
def cfgGranule : Config :=
  { cfgZam .complete with memmap := [Config.ram, device], atomicGranules := [⟨0x1000, 16, 8⟩] }

/-- The environment may fail an SC. -/
def cfgOracle : Config := { Config.reset with scMayFail := .oracle }

/-- The reset state in a configuration, with some integer registers set. -/
def start (c : Config) (xs : List (Reg × Word)) : State :=
  xs.foldl (fun s r => { s with x := s.x.set r.1.toNat r.2 r.1.isLt }) { State.reset with cfg := c }

/-- With some floating-point registers set. -/
def floats (s : State) (fs : List (Reg × FWord)) : State :=
  fs.foldl (fun t r => t.writeF r.1 r.2) s

/-- The data bytes of the spec's load vectors, at 0x80001000 (95_test_vectors.md, section 2.2). -/
def data : List Host.Cell :=
  [(0x80001000, 0x80#8), (0x80001001, 0xFF#8), (0x80001002, 0x7F#8), (0x80001003, 0x01#8), (0x80001004, 0xEF#8),
    (0x80001005, 0xBE#8), (0x80001006, 0xAD#8), (0x80001007, 0xDE#8)]

/-- The word of the spec's atomic vectors, at 0x80002000 (section 2.5). -/
def lock : List Host.Cell := [(0x80002000, 0x78#8), (0x80002001, 0x56#8), (0x80002002, 0x34#8), (0x80002003, 0x92#8)]

/-- The code decodes, its instruction answers a next state, and the test holds of it. -/
def runs (s : State) (k : Code) (test : State → Bool) : Bool :=
  match decode s.cfg k with
  | .error _ => false
  | .ok i =>
    match exec i s with
    | .next t => test t
    | .fault _ => false
    | .refused _ => false

/-- The next state is the one tested. -/
def nextIs (o : Result) (test : State → Bool) : Bool :=
  match o with
  | .next t => test t
  | .fault _ => false
  | .refused _ => false

/-- The result has this pattern and these flags. -/
def gives {w : Nat} (r : BitVec w × FFlags) (b : Nat) (fl : FFlags) : Bool := r.1.toNat == b && r.2 == fl

/-- Trapped with this cause and value, at `pc`. -/
def trappedBy (cause : Cause) (tval : Word) (t : State) : Bool :=
  match t.status with
  | .running => false
  | .trapped r => r.cause == cause && r.tval == tval && r.epc == t.pc

def isRunning (t : State) : Bool := t.status == .running

def decodesTo (c : Config) (k : Code) (i : Instr) : Bool :=
  match decode c k with
  | .error _ => false
  | .ok j => j == i

def decodesAll (c : Config) (rows : List (Code × Instr)) : Bool := rows.all fun r => decodesTo c r.1 r.2

def allWellFormed (c : Config) (is : List Instr) : Bool := is.all fun i => i.wellFormed c
def noneWellFormed (c : Config) (is : List Instr) : Bool := is.all fun i => !i.wellFormed c

/-! ### WellFormed refuses an ill-formed term, for each of its checks -/

theorem test_wf_absent_extension :
    noneWellFormed (withExt fun e => { e with m := false, zmmul := false }) [.mul 1 2 3, .mulw 1 2 3, .div 1 2 3] &&
    noneWellFormed (withExt fun e => { e with m := false }) [.div 1 2 3, .remuw 1 2 3] &&
    allWellFormed (withExt fun e => { e with m := false }) [.mul 1 2 3] &&
    noneWellFormed (withExt fun e => { e with a := false }) [.lrW 1 2 0 0, .amomaxuD 1 2 3 1 1] &&
    noneWellFormed (withExt fun e => { e with f := false, d := false, q := false })
      [.flw 1 2 0, .fcvtLS 1 2 0, .fld 1 2 0, .fmvDX 1 2, .flq 1 2 0, .fcvtQL 1 2 0] &&
    noneWellFormed (withExt fun e => { e with d := false, q := false }) [.cFld 1 2 3, .cFsdsp 1 2] &&
    noneWellFormed (withExt fun e => { e with zicsr := false }) [.csrrw 1 2 1, .csrrci 1 2 1] &&
    noneWellFormed (withExt fun e => { e with zifencei := false }) [.fenceI 0 0 0] &&
    noneWellFormed cfgNoC [.cNop 0, .cLd 1 2 3, .cEbreak, .illegalAllZero] = true := by decide

theorem test_wf_wrong_base :
    noneWellFormed cfg32 [.ld 1 2 0, .addiw 1 2 0, .divw 1 2 3, .lrD 1 2 0 0, .fcvtLS 1 2 0, .fmvXD 1 2,
      .fcvtQL 1 2 0, .cLd 1 2 3, .cAddiw 1 2] &&
    noneWellFormed Config.reset [.cJal 2, .cFlw 1 2 3, .cFswsp 1 2, .cLq 1 2 3, .cSq 1 2 3, .cLqsp 1 2, .cSqsp 1 2] &&
    allWellFormed cfg32 [.cJal 2, .cFlw 1 2 3] = true := by decide

theorem test_wf_shift_amount :
    noneWellFormed cfg32 [.slli 1 2 32, .srli 1 2 63, .srai 1 2 32, .cSlli 1 32, .cSrli 1 32, .cSrai 1 63] &&
    allWellFormed cfg32 [.slli 1 2 31, .srai 1 2 0, .cSrai 1 31] && allWellFormed Config.reset [.slli 1 2 63] &&
    noneWellFormed Config.reset [.cSlli 1 0, .cSrli 1 0, .cSrai 1 0] = true := by decide

theorem test_wf_other_code_points :
    noneWellFormed Config.reset [.fence 8 3 3 0 0, .fence 0 1 0 0 0, .cAddi4spn 1 0, .cAddi 0 1, .cAddiw 0 1,
      .cLwsp 0 1, .cLdsp 0 1, .cAddi16sp 0, .cLui 2 1, .cLui 1 0, .cJr 0, .cJalr 0, .cMv 1 0, .cAdd 1 0] &&
    allWellFormed Config.reset [.fence 8 3 3 0 1, .fence 0 1 0 1 0, .cLui 0 1, .cLi 0 1, .cMv 0 1] = true := by decide

theorem test_wf_rv32e_registers :
    noneWellFormed cfg32e [.add 16 1 2, .add 1 31 2, .addi 1 17 0, .sw 1 16 0, .csrrs 1 16 1, .fcvtWS 16 1 0, .cMv 16 1] &&
    allWellFormed cfg32e [.add 15 1 2, .slli 1 2 17, .csrrsi 1 31 1, .fcvtWS 15 31 0, .fence 0 3 3 31 31] = true := by
  decide

/-! ### Decode -/

theorem test_decode_rv32i_integer :
    decodesAll Config.reset [
      (.word 0xDDA14737#32, .lui 14#5 907796#20), (.word 0xDB5B5897#32, .auipc 17#5 898485#20),
      (.word 0x773C0E93#32, .addi 29#5 24#5 1907#12), (.word 0xDAE82713#32, .slti 14#5 16#5 3502#12),
      (.word 0x2F433913#32, .sltiu 18#5 6#5 756#12), (.word 0x79C84C93#32, .xori 25#5 16#5 1948#12),
      (.word 0xCB09EA13#32, .ori 20#5 19#5 3248#12), (.word 0x7251F293#32, .andi 5#5 3#5 1829#12),
      (.word 0x00521493#32, .slli 9#5 4#5 5#6), (.word 0x038CD893#32, .srli 17#5 25#5 56#6),
      (.word 0x426A5B13#32, .srai 22#5 20#5 38#6), (.word 0x01E60FB3#32, .add 31#5 12#5 30#5),
      (.word 0x417A0733#32, .sub 14#5 20#5 23#5), (.word 0x005A19B3#32, .sll 19#5 20#5 5#5),
      (.word 0x010D29B3#32, .slt 19#5 26#5 16#5), (.word 0x0060B0B3#32, .sltu 1#5 1#5 6#5),
      (.word 0x0133CE33#32, .xor 28#5 7#5 19#5), (.word 0x00A75C33#32, .srl 24#5 14#5 10#5),
      (.word 0x41A95733#32, .sra 14#5 18#5 26#5), (.word 0x00786333#32, .or 6#5 16#5 7#5),
      (.word 0x00F4FA33#32, .and 20#5 9#5 15#5)] = true := by decide

theorem test_decode_rv32i_control_memory_system :
    decodesAll Config.reset [
      (.word 0x03B2BAEF#32, .jal 21#5 89117#20), (.word 0x473A0767#32, .jalr 14#5 20#5 1139#12),
      (.word 0x9BF68163#32, .beq 13#5 31#5 2257#12), (.word 0xAFDF91E3#32, .bne 31#5 29#5 3441#12),
      (.word 0x208B4BE3#32, .blt 22#5 8#5 1291#12), (.word 0x867C5463#32, .bge 24#5 7#5 2100#12),
      (.word 0x8924E2E3#32, .bltu 9#5 18#5 3138#12), (.word 0x36C1F963#32, .bgeu 3#5 12#5 441#12),
      (.word 0x62F48D83#32, .lb 27#5 9#5 1583#12), (.word 0xAF5D9F03#32, .lh 30#5 27#5 2805#12),
      (.word 0xED532303#32, .lw 6#5 6#5 3797#12), (.word 0x7850CE83#32, .lbu 29#5 1#5 1925#12),
      (.word 0xB57FD603#32, .lhu 12#5 31#5 2903#12), (.word 0x12D605A3#32, .sb 12#5 13#5 299#12),
      (.word 0x334916A3#32, .sh 18#5 20#5 813#12), (.word 0x455C28A3#32, .sw 24#5 21#5 1105#12),
      (.word 0x556C0E8F#32, .fence 5#4 5#4 6#4 24#5 29#5), (.word 0x8330000F#32, .fenceTso),
      (.word 0x0100000F#32, .pause), (.word 0x1E32138F#32, .fenceI 483#12 4#5 7#5), (.word 0x00000073#32, .ecall),
      (.word 0x00100073#32, .ebreak)] = true := by decide

theorem test_decode_rv64i :
    decodesAll Config.reset [
      (.word 0x02C1EB03#32, .lwu 22#5 3#5 44#12), (.word 0xCC073083#32, .ld 1#5 14#5 3264#12),
      (.word 0xAE57B4A3#32, .sd 15#5 5#5 2793#12), (.word 0x7283089B#32, .addiw 17#5 6#5 1832#12),
      (.word 0x0173181B#32, .slliw 16#5 6#5 23#5), (.word 0x00D25C1B#32, .srliw 24#5 4#5 13#5),
      (.word 0x40365A1B#32, .sraiw 20#5 12#5 3#5), (.word 0x01F6863B#32, .addw 12#5 13#5 31#5),
      (.word 0x41B4033B#32, .subw 6#5 8#5 27#5), (.word 0x019F9FBB#32, .sllw 31#5 31#5 25#5),
      (.word 0x01F4D93B#32, .srlw 18#5 9#5 31#5), (.word 0x40535E3B#32, .sraw 28#5 6#5 5#5)] = true := by decide

theorem test_decode_m :
    decodesAll Config.reset [
      (.word 0x03BF8633#32, .mul 12#5 31#5 27#5), (.word 0x032A19B3#32, .mulh 19#5 20#5 18#5),
      (.word 0x03F0A1B3#32, .mulhsu 3#5 1#5 31#5), (.word 0x02E33233#32, .mulhu 4#5 6#5 14#5),
      (.word 0x033C4433#32, .div 8#5 24#5 19#5), (.word 0x029D5533#32, .divu 10#5 26#5 9#5),
      (.word 0x03236633#32, .rem 12#5 6#5 18#5), (.word 0x0333FA33#32, .remu 20#5 7#5 19#5),
      (.word 0x033585BB#32, .mulw 11#5 11#5 19#5), (.word 0x03E2473B#32, .divw 14#5 4#5 30#5),
      (.word 0x03A7D93B#32, .divuw 18#5 15#5 26#5), (.word 0x03B2693B#32, .remw 18#5 4#5 27#5),
      (.word 0x0342F63B#32, .remuw 12#5 5#5 20#5)] = true := by decide

theorem test_decode_a :
    decodesAll Config.reset [
      (.word 0x1404A22F#32, .lrW 4#5 9#5 1#1 0#1), (.word 0x1C79AD2F#32, .scW 26#5 19#5 7#5 1#1 0#1),
      (.word 0x0F4BA2AF#32, .amoswapW 5#5 23#5 20#5 1#1 1#1), (.word 0x03EAA32F#32, .amoaddW 6#5 21#5 30#5 0#1 1#1),
      (.word 0x20D9A7AF#32, .amoxorW 15#5 19#5 13#5 0#1 0#1), (.word 0x6500A1AF#32, .amoandW 3#5 1#5 16#5 1#1 0#1),
      (.word 0x416BA3AF#32, .amoorW 7#5 23#5 22#5 0#1 0#1), (.word 0x85CD26AF#32, .amominW 13#5 26#5 28#5 1#1 0#1),
      (.word 0xA65824AF#32, .amomaxW 9#5 16#5 5#5 1#1 1#1), (.word 0xC2722FAF#32, .amominuW 31#5 4#5 7#5 0#1 1#1),
      (.word 0xE53DAA2F#32, .amomaxuW 20#5 27#5 19#5 1#1 0#1), (.word 0x1603342F#32, .lrD 8#5 6#5 1#1 1#1),
      (.word 0x188BB32F#32, .scD 6#5 23#5 8#5 0#1 0#1), (.word 0x0810B3AF#32, .amoswapD 7#5 1#5 1#5 0#1 0#1),
      (.word 0x052835AF#32, .amoaddD 11#5 16#5 18#5 1#1 0#1), (.word 0x23C235AF#32, .amoxorD 11#5 4#5 28#5 0#1 1#1),
      (.word 0x677AB52F#32, .amoandD 10#5 21#5 23#5 1#1 1#1), (.word 0x444F392F#32, .amoorD 18#5 30#5 4#5 1#1 0#1),
      (.word 0x83D7BEAF#32, .amominD 29#5 15#5 29#5 0#1 1#1), (.word 0xA21F34AF#32, .amomaxD 9#5 30#5 1#5 0#1 1#1),
      (.word 0xC177BA2F#32, .amominuD 20#5 15#5 23#5 0#1 0#1), (.word 0xE4EFB22F#32, .amomaxuD 4#5 31#5 14#5 1#1 0#1)] = true := by decide

theorem test_decode_zicsr :
    decodesAll Config.reset [
      (.word 0xE6709BF3#32, .csrrw 23#5 1#5 3687#12), (.word 0xBCBBAEF3#32, .csrrs 29#5 23#5 3019#12),
      (.word 0xCB123B73#32, .csrrc 22#5 4#5 3249#12), (.word 0x577EDF73#32, .csrrwi 30#5 29#5 1399#12),
      (.word 0x792AE5F3#32, .csrrsi 11#5 21#5 1938#12), (.word 0xDB7DFE73#32, .csrrci 28#5 27#5 3511#12)] = true := by decide

theorem test_decode_f :
    decodesAll Config.reset [
      (.word 0xCA6F2687#32, .flw 13#5 30#5 3238#12), (.word 0x92FDA527#32, .fsw 27#5 15#5 2346#12),
      (.word 0x60CA89C3#32, .fmaddS 19#5 21#5 12#5 12#5 0#3), (.word 0xF83A39C7#32, .fmsubS 19#5 20#5 3#5 31#5 3#3),
      (.word 0xE8C57BCB#32, .fnmsubS 23#5 10#5 12#5 29#5 7#3),
      (.word 0x70E7494F#32, .fnmaddS 18#5 14#5 14#5 14#5 4#3), (.word 0x010C2853#32, .faddS 16#5 24#5 16#5 2#3),
      (.word 0x0877F9D3#32, .fsubS 19#5 15#5 7#5 7#3), (.word 0x1187F1D3#32, .fmulS 3#5 15#5 24#5 7#3),
      (.word 0x18878ED3#32, .fdivS 29#5 15#5 8#5 0#3), (.word 0x5804F5D3#32, .fsqrtS 11#5 9#5 7#3),
      (.word 0x210309D3#32, .fsgnjS 19#5 6#5 16#5), (.word 0x21CC12D3#32, .fsgnjnS 5#5 24#5 28#5),
      (.word 0x21DAA553#32, .fsgnjxS 10#5 21#5 29#5), (.word 0x29C78753#32, .fminS 14#5 15#5 28#5),
      (.word 0x28C513D3#32, .fmaxS 7#5 10#5 12#5), (.word 0xC0047AD3#32, .fcvtWS 21#5 8#5 7#3),
      (.word 0xC01C96D3#32, .fcvtWUS 13#5 25#5 1#3), (.word 0xE0030E53#32, .fmvXW 28#5 6#5),
      (.word 0xA123A653#32, .feqS 12#5 7#5 18#5), (.word 0xA0651ED3#32, .fltS 29#5 10#5 6#5),
      (.word 0xA0F20253#32, .fleS 4#5 4#5 15#5), (.word 0xE00D15D3#32, .fclassS 11#5 26#5),
      (.word 0xD00DFE53#32, .fcvtSW 28#5 27#5 7#3), (.word 0xD01F9F53#32, .fcvtSWU 30#5 31#5 1#3),
      (.word 0xF00701D3#32, .fmvWX 3#5 14#5), (.word 0xC02417D3#32, .fcvtLS 15#5 8#5 1#3),
      (.word 0xC036FD53#32, .fcvtLUS 26#5 13#5 7#3), (.word 0xD027A853#32, .fcvtSL 16#5 15#5 2#3),
      (.word 0xD03D4B53#32, .fcvtSLU 22#5 26#5 4#3)] = true := by decide

theorem test_decode_d :
    decodesAll Config.reset [
      (.word 0x13153707#32, .fld 14#5 10#5 305#12), (.word 0x461D39A7#32, .fsd 26#5 1#5 1139#12),
      (.word 0xAA19ADC3#32, .fmaddD 27#5 19#5 1#5 21#5 2#3), (.word 0xA295C947#32, .fmsubD 18#5 11#5 9#5 20#5 4#3),
      (.word 0x72C20A4B#32, .fnmsubD 20#5 4#5 12#5 14#5 0#3), (.word 0x3A8D1C4F#32, .fnmaddD 24#5 26#5 8#5 7#5 1#3),
      (.word 0x03F08CD3#32, .faddD 25#5 1#5 31#5 0#3), (.word 0x0B41F753#32, .fsubD 14#5 3#5 20#5 7#3),
      (.word 0x12BC8A53#32, .fmulD 20#5 25#5 11#5 0#3), (.word 0x1A633AD3#32, .fdivD 21#5 6#5 6#5 3#3),
      (.word 0x5A028453#32, .fsqrtD 8#5 5#5 0#3), (.word 0x23178C53#32, .fsgnjD 24#5 15#5 17#5),
      (.word 0x22509B53#32, .fsgnjnD 22#5 1#5 5#5), (.word 0x238423D3#32, .fsgnjxD 7#5 8#5 24#5),
      (.word 0x2B6885D3#32, .fminD 11#5 17#5 22#5), (.word 0x2B081F53#32, .fmaxD 30#5 16#5 16#5),
      (.word 0x401F99D3#32, .fcvtSD 19#5 31#5 1#3), (.word 0x420DF653#32, .fcvtDS 12#5 27#5 7#3),
      (.word 0xA2D3AE53#32, .feqD 28#5 7#5 13#5), (.word 0xA37E1ED3#32, .fltD 29#5 28#5 23#5),
      (.word 0xA2E20653#32, .fleD 12#5 4#5 14#5), (.word 0xE2031753#32, .fclassD 14#5 6#5),
      (.word 0xC20E0A53#32, .fcvtWD 20#5 28#5 0#3), (.word 0xC218F653#32, .fcvtWUD 12#5 17#5 7#3),
      (.word 0xD2082E53#32, .fcvtDW 28#5 16#5 2#3), (.word 0xD2151753#32, .fcvtDWU 14#5 10#5 1#3),
      (.word 0xC22BF1D3#32, .fcvtLD 3#5 23#5 7#3), (.word 0xC23B1ED3#32, .fcvtLUD 29#5 22#5 1#3),
      (.word 0xE20E03D3#32, .fmvXD 7#5 28#5), (.word 0xD22FA653#32, .fcvtDL 12#5 31#5 2#3),
      (.word 0xD23FA8D3#32, .fcvtDLU 17#5 31#5 2#3), (.word 0xF20E8453#32, .fmvDX 8#5 29#5)] = true := by decide

theorem test_decode_q :
    decodesAll Config.reset [
      (.word 0x593DCB07#32, .flq 22#5 27#5 1427#12), (.word 0x701846A7#32, .fsq 16#5 1#5 1805#12),
      (.word 0xC6D8B543#32, .fmaddQ 10#5 17#5 13#5 24#5 3#3), (.word 0xDF933EC7#32, .fmsubQ 29#5 6#5 25#5 27#5 3#3),
      (.word 0x8E50FCCB#32, .fnmsubQ 25#5 1#5 5#5 17#5 7#3), (.word 0x7E4ECCCF#32, .fnmaddQ 25#5 29#5 4#5 15#5 4#3),
      (.word 0x070BFE53#32, .faddQ 28#5 23#5 16#5 7#3), (.word 0x0FE73B53#32, .fsubQ 22#5 14#5 30#5 3#3),
      (.word 0x176F1953#32, .fmulQ 18#5 30#5 22#5 1#3), (.word 0x1F187753#32, .fdivQ 14#5 16#5 17#5 7#3),
      (.word 0x5E0A48D3#32, .fsqrtQ 17#5 20#5 4#3), (.word 0x27DD0853#32, .fsgnjQ 16#5 26#5 29#5),
      (.word 0x269418D3#32, .fsgnjnQ 17#5 8#5 9#5), (.word 0x27E62AD3#32, .fsgnjxQ 21#5 12#5 30#5),
      (.word 0x2FCD8DD3#32, .fminQ 27#5 27#5 28#5), (.word 0x2E9319D3#32, .fmaxQ 19#5 6#5 9#5),
      (.word 0x40324DD3#32, .fcvtSQ 27#5 4#5 4#3), (.word 0x46043853#32, .fcvtQS 16#5 8#5 3#3),
      (.word 0x42368353#32, .fcvtDQ 6#5 13#5 0#3), (.word 0x46198853#32, .fcvtQD 16#5 19#5 0#3),
      (.word 0xA61FA8D3#32, .feqQ 17#5 31#5 1#5), (.word 0xA6CE9853#32, .fltQ 16#5 29#5 12#5),
      (.word 0xA7FC88D3#32, .fleQ 17#5 25#5 31#5), (.word 0xE6019953#32, .fclassQ 18#5 3#5),
      (.word 0xC60B07D3#32, .fcvtWQ 15#5 22#5 0#3), (.word 0xC618BED3#32, .fcvtWUQ 29#5 17#5 3#3),
      (.word 0xD60F3ED3#32, .fcvtQW 29#5 30#5 3#3), (.word 0xD613B453#32, .fcvtQWU 8#5 7#5 3#3),
      (.word 0xC6253253#32, .fcvtLQ 4#5 10#5 3#3), (.word 0xC6351853#32, .fcvtLUQ 16#5 10#5 1#3),
      (.word 0xD629A6D3#32, .fcvtQL 13#5 19#5 2#3), (.word 0xD63B0253#32, .fcvtQLU 4#5 22#5 0#3)] = true := by decide

theorem test_decode_c :
    decodesAll Config.reset [
      (.half 0x0000#16, .illegalAllZero), (.half 0x01C0#16, .cAddi4spn 0#3 49#8),
      (.half 0x34C4#16, .cFld 1#3 1#3 21#5), (.half 0x4D68#16, .cLw 2#3 2#3 23#5),
      (.half 0x7C2C#16, .cLd 3#3 0#3 15#5), (.half 0xAE90#16, .cFsd 5#3 4#3 3#5),
      (.half 0xC770#16, .cSw 6#3 4#3 19#5), (.half 0xF2F0#16, .cSd 5#3 4#3 28#5), (.half 0x006D#16, .cNop 27#6),
      (.half 0x1621#16, .cAddi 12#5 40#6), (.half 0x3D05#16, .cAddiw 26#5 33#6), (.half 0x49A9#16, .cLi 19#5 10#6),
      (.half 0x7105#16, .cAddi16sp 34#6), (.half 0x735D#16, .cLui 6#5 55#6), (.half 0x9289#16, .cSrli 5#3 34#6),
      (.half 0x96B5#16, .cSrai 5#3 45#6), (.half 0x8A35#16, .cAndi 4#3 13#6), (.half 0x8F11#16, .cSub 6#3 4#3),
      (.half 0x8E31#16, .cXor 4#3 4#3), (.half 0x8F45#16, .cOr 6#3 1#3), (.half 0x8CFD#16, .cAnd 1#3 7#3),
      (.half 0x9E95#16, .cSubw 5#3 5#3), (.half 0x9F29#16, .cAddw 6#3 2#3), (.half 0xBD85#16, .cJ 1848#11),
      (.half 0xC0C5#16, .cBeqz 1#3 80#8), (.half 0xE245#16, .cBnez 4#3 80#8), (.half 0x1E6E#16, .cSlli 28#5 59#6),
      (.half 0x3326#16, .cFldsp 6#5 13#6), (.half 0x5C42#16, .cLwsp 24#5 12#6), (.half 0x621E#16, .cLdsp 4#5 56#6),
      (.half 0x8382#16, .cJr 7#5), (.half 0x825E#16, .cMv 4#5 23#5), (.half 0x9002#16, .cEbreak),
      (.half 0x9402#16, .cJalr 8#5), (.half 0x960E#16, .cAdd 12#5 3#5), (.half 0xB736#16, .cFsdsp 13#5 53#6),
      (.half 0xD4FA#16, .cSwsp 30#5 26#6), (.half 0xF0DA#16, .cSdsp 22#5 12#6), (.half 0x0602#16, .cSlli64 12#5),
      (.half 0x8281#16, .cSrli64 5#3), (.half 0x8681#16, .cSrai64 5#3)] = true := by decide

theorem test_decode_c_rv32_only :
    decodesAll cfg32 [
      (.half 0x64E8#16, .cFlw 2#3 1#3 19#5), (.half 0xED14#16, .cFsw 2#3 5#3 6#5), (.half 0x2D71#16, .cJal 846#11),
      (.half 0x6E62#16, .cFlwsp 28#5 6#6), (.half 0xE5C6#16, .cFswsp 17#5 50#6)] = true := by decide

/-- The RV128 rows share their code points with C.FLD, C.FSD, C.FLDSP and C.FSDSP (30_encoding.md; 49_c.md R586 to
R589; log 21). -/
theorem test_decode_rv128_words :
    decodesAll Config.reset [(.half 0x2404#16, .cFld 1 0 1), (.half 0xBC64#16, .cFsd 0 1 31), (.half 0x2082#16, .cFldsp 1 0),
      (.half 0xA006#16, .cFsdsp 1 0)] = true := by decide

/-! Words written out field by field, from the formats of 30_encoding.md and the rows of opcode_table.json. -/

theorem test_bits_r_i_shift :
    decodesAll Config.reset [
      (.word (0b0100000#7 ++ 0b00111#5 ++ 0b00110#5 ++ 0b000#3 ++ 0b00101#5 ++ 0b0110011#7), .sub 5 6 7),
      (.word (0b100000000001#12 ++ 0b00110#5 ++ 0b000#3 ++ 0b00101#5 ++ 0b0010011#7), .addi 5 6 0x801),
      (.word (0b010000#6 ++ 0b100001#6 ++ 0b00110#5 ++ 0b101#3 ++ 0b00101#5 ++ 0b0010011#7), .srai 5 6 33),
      (.word (0b0100000#7 ++ 0b00011#5 ++ 0b00110#5 ++ 0b101#3 ++ 0b00101#5 ++ 0b0011011#7), .sraiw 5 6 3),
      (.word (0b0000001#7 ++ 0b00111#5 ++ 0b00110#5 ++ 0b010#3 ++ 0b00101#5 ++ 0b0110011#7), .mulhsu 5 6 7)]
      = true := by decide

/-- S: imm[11:5], imm[4:0]. B: imm[12], imm[10:5], imm[4:1], imm[11]. J: imm[20], imm[10:1], imm[11], imm[19:12]. -/
theorem test_bits_s_b_u_j :
    decodesAll Config.reset [
      (.word (0b1010101#7 ++ 0b00111#5 ++ 0b00110#5 ++ 0b010#3 ++ 0b00011#5 ++ 0b0100011#7), .sw 6 7 0b101010100011#12),
      (.word (0b1#1 ++ 0b000011#6 ++ 0b00111#5 ++ 0b00110#5 ++ 0b001#3 ++ 0b0101#4 ++ 0b0#1 ++ 0b1100011#7),
        .bne 6 7 0b100000110101#12),
      (.word (0b0#1 ++ 0b000011#6 ++ 0b00111#5 ++ 0b00110#5 ++ 0b111#3 ++ 0b0101#4 ++ 0b1#1 ++ 0b1100011#7),
        .bgeu 6 7 0b010000110101#12),
      (.word (0b10000000000000000001#20 ++ 0b00101#5 ++ 0b0110111#7), .lui 5 0x80001),
      (.word (0b1#1 ++ 0b0000000011#10 ++ 0b0#1 ++ 0b00000101#8 ++ 0b00001#5 ++ 0b1101111#7),
        .jal 1 0b10000010100000000011#20),
      (.word (0b0#1 ++ 0b1000000001#10 ++ 0b1#1 ++ 0b10000000#8 ++ 0b00001#5 ++ 0b1101111#7),
        .jal 1 0b01000000011000000001#20)] = true := by decide

theorem test_bits_atomic_csr_float :
    decodesAll Config.reset [
      (.word (0b00011#5 ++ 0b1#1 ++ 0b0#1 ++ 0b00111#5 ++ 0b00110#5 ++ 0b011#3 ++ 0b00101#5 ++ 0b0101111#7),
        .scD 5 6 7 1 0),
      (.word (0b11100#5 ++ 0b0#1 ++ 0b1#1 ++ 0b00111#5 ++ 0b00110#5 ++ 0b010#3 ++ 0b00101#5 ++ 0b0101111#7),
        .amomaxuW 5 6 7 0 1),
      (.word (0b000000000011#12 ++ 0b11111#5 ++ 0b111#3 ++ 0b00101#5 ++ 0b1110011#7), .csrrci 5 31 3),
      (.word (0b00100#5 ++ 0b01#2 ++ 0b00011#5 ++ 0b00010#5 ++ 0b111#3 ++ 0b00001#5 ++ 0b1001011#7),
        .fnmsubD 1 2 3 4 7),
      (.word (0b1101000#7 ++ 0b00011#5 ++ 0b00110#5 ++ 0b001#3 ++ 0b00001#5 ++ 0b1010011#7), .fcvtSLU 1 6 1),
      (.word (0b0100011#7 ++ 0b00001#5 ++ 0b00010#5 ++ 0b000#3 ++ 0b00001#5 ++ 0b1010011#7), .fcvtQD 1 2 0)]
      = true := by decide

/-- C.LW: uimm[5:3], uimm[2], uimm[6]. C.J: imm[11], [4], [9:8], [10], [6], [7], [3:1], [5]. C.ADDI16SP: nzimm[9], [4],
[6], [8:7], [5]. C.SDSP: uimm[5:3], uimm[8:6]. -/
theorem test_bits_compressed :
    decodesAll Config.reset [
      (.half (0b010#3 ++ 0b011#3 ++ 0b000#3 ++ 0b0#1 ++ 0b1#1 ++ 0b001#3 ++ 0b00#2), .cLw 1 0 0b10110#5),
      (.half (0b101#3 ++ 0b1#1 ++ 0b0#1 ++ 0b01#2 ++ 0b0#1 ++ 0b1#1 ++ 0b0#1 ++ 0b101#3 ++ 0b0#1 ++ 0b01#2),
        .cJ 0b10010100101#11),
      (.half (0b011#3 ++ 0b1#1 ++ 0b00010#5 ++ 0b0#1 ++ 0b1#1 ++ 0b01#2 ++ 0b0#1 ++ 0b01#2), .cAddi16sp 0b101100#6),
      (.half (0b111#3 ++ 0b011#3 ++ 0b100#3 ++ 0b00101#5 ++ 0b10#2), .cSdsp 5 0b100011#6)] = true := by decide

/-- Reserved words (95_test_vectors.md A21, B10, B20, B55, B56, C9, C19, D37, F11, F34, F35, G24; 96 H31, H40, H45). -/
theorem test_reserved_words_decode_to_nothing :
    ([0x40131293#32, 0x000310E7#32, 0x00732863#32, 0x00200073#32, 0x000000F3#32, 0x0203129B#32, 0x007322BB#32,
      0x027312BB#32, 0x107322AF#32, 0x287322AF#32, 0x007302AF#32, 0x003342F3#32, 0x581100D3#32, 0x243100C3#32,
      0x203130D3#32, 0xE60102D3#32].all fun w =>
        match decode Config.reset (.word w) with
        | .error _ => true
        | .ok _ => false) = true := by decide

/-! ### One step, on rows of the spec's vectors -/

/-- A3. -/
theorem test_auipc_wraps :
    runs (start cfg32 []) (.word 0xFFFFF297#32)
      (fun t => t.readX 5 == 0x7FFFF000#64 && t.pc == 0x80000004#64) = true := by decide

/-- A5, A9: the immediate is sign-extended, then compared unsigned. -/
theorem test_addi_sltiu_immediates :
    runs (start cfg32 []) (.word 0xFFF30293#32) (fun t => t.readX 5 == 0xFFFFFFFF#64) &&
    runs (start cfg32 [(6, 0xFFFFFFFE)]) (.word 0xFFF33293#32) (fun t => t.readX 5 == 1#64) = true := by decide

/-- A25, A26, A32: the shift amount is the low log2(XLEN) bits. -/
theorem test_shift_amounts :
    runs (start cfg32 [(6, 1), (7, 0x21)]) (.word 0x007312B3#32) (fun t => t.readX 5 == 2#64) &&
    runs (start Config.reset [(6, 1), (7, 0x21)]) (.word 0x007312B3#32) (fun t => t.readX 5 == 0x200000000#64) &&
    runs (start cfg32 [(6, 0x80000000), (7, 0xFFFFFFE4)]) (.word 0x407352B3#32) (fun t => t.readX 5 == 0xF8000000#64)
      = true := by decide

/-- B3, B6, B7: a misaligned target writes no link; bit 0 is cleared; the target is from the old `x1`. -/
theorem test_jumps :
    runs (start { cfgNoC with base := .rv32i } []) (.word 0x002000EF#32)
      (fun t => trappedBy .instructionAddressMisaligned 0x80000002#64 t && t.readX 1 == 0#64) &&
    runs (start cfg32 [(6, 0x80000100)]) (.word 0x005300E7#32)
      (fun t => t.readX 1 == 0x80000004#64 && t.pc == 0x80000104#64) &&
    runs (start cfg32 [(1, 0x80000200)]) (.word 0x000080E7#32)
      (fun t => t.readX 1 == 0x80000004#64 && t.pc == 0x80000200#64) = true := by decide

/-- B14, B15: signed and unsigned. -/
theorem test_branches :
    runs (start cfg32 [(6, 0xFFFFFFFF), (7, 1)]) (.word 0x00734863#32) (fun t => t.pc == 0x80000010#64) &&
    runs (start cfg32 [(6, 0xFFFFFFFF), (7, 1)]) (.word 0x00736863#32) (fun t => t.pc == 0x80000004#64) = true := by
  decide

/-- B21, B27, B30, C20: sign, byte order, alignment, width. -/
theorem test_loads :
    runs { start cfg32 [(6, 0x80001000)] with memory := data } (.word 0x00030283#32)
      (fun t => t.readX 5 == 0xFFFFFF80#64) &&
    runs { start { cfg32 with endian := .big } [(6, 0x80001000)] with memory := data } (.word 0x00032283#32)
      (fun t => t.readX 5 == 0x80FF7F01#64) &&
    runs { start cfg32 [(6, 0x80001000)] with memory := data } (.word 0x00132283#32)
      (trappedBy .loadAddressMisaligned 0x80001001#64) &&
    runs { start Config.reset [(6, 0x80001000)] with memory := data } (.word 0x00033283#32)
      (fun t => t.readX 5 == 0xDEADBEEF017FFF80#64) = true := by decide

/-- B41, B42: byte order of a store. -/
theorem test_stores :
    runs (start cfg32 [(6, 0x80001000), (7, 0x12345678)]) (.word 0x00732023#32)
      (fun t => t.memory == [(0x80001000, 0x78#8), (0x80001001, 0x56#8), (0x80001002, 0x34#8), (0x80001003, 0x12#8)]) &&
    runs (start { cfg32 with endian := .big } [(6, 0x80001000), (7, 0x12345678)]) (.word 0x00732023#32)
      (fun t => t.memory == [(0x80001000, 0x12#8), (0x80001001, 0x34#8), (0x80001002, 0x56#8), (0x80001003, 0x78#8)])
      = true := by decide

/-- C2, C5, C18: the low words, sign-extended. -/
theorem test_word_forms :
    runs (start Config.reset [(6, 0x123456787FFFFFFF)]) (.word 0x0013029B#32)
      (fun t => t.readX 5 == 0xFFFFFFFF80000000#64) &&
    runs (start Config.reset [(6, 0xFFFFFFFF80000000)]) (.word 0x01F3529B#32) (fun t => t.readX 5 == 1#64) &&
    runs (start Config.reset [(6, 0x80000000), (7, 0x24)]) (.word 0x407352BB#32)
      (fun t => t.readX 5 == 0xFFFFFFFFF8000000#64) = true := by decide

/-- D6, D11, D12, D19, D25, D29. -/
theorem test_multiply_divide :
    runs (start cfg32 [(6, 0xFFFFFFFF), (7, 0xFFFFFFFF)]) (.word 0x027322B3#32) (fun t => t.readX 5 == 0xFFFFFFFF#64) &&
    runs (start cfg32 [(6, 0xFFFFFFF9), (7, 2)]) (.word 0x027342B3#32) (fun t => t.readX 5 == 0xFFFFFFFD#64) &&
    runs (start cfg32 [(6, 0xFFFFFFF9), (7, 2)]) (.word 0x027362B3#32) (fun t => t.readX 5 == 0xFFFFFFFF#64) &&
    runs (start cfg32 [(6, 0x80000000), (7, 0xFFFFFFFF)]) (.word 0x027342B3#32) (fun t => t.readX 5 == 0x80000000#64) &&
    runs (start Config.reset [(6, 0x10000), (7, 0x8000)]) (.word 0x027302BB#32)
      (fun t => t.readX 5 == 0xFFFFFFFF80000000#64) &&
    runs (start Config.reset [(6, 5), (7, 0)]) (.word 0x027352BB#32) (fun t => t.readX 5 == 0xFFFFFFFFFFFFFFFF#64)
      = true := by decide

/-- F1, F3, F4. -/
theorem test_load_reserved_store_conditional :
    runs { start cfg32 [(6, 0x80002000)] with memory := lock } (.word 0x100322AF#32)
      (fun t => t.readX 5 == 0x92345678#64 && t.reservation == some ⟨[⟨0x80002000, 4⟩], 0x80002000, 4⟩) &&
    runs { start cfg32 [(5, 0xAAAAAAAA), (6, 0x80002000), (7, 0x11223344)] with
        memory := lock, reservation := some ⟨[⟨0x80002000, 4⟩], 0x80002000, 4⟩ } (.word 0x187322AF#32)
      (fun t => t.readX 5 == 0#64 && Memory.read t.memory 0x80002000 == 0x44#8 && t.reservation == none) &&
    runs { start cfg32 [(5, 0xAAAAAAAA), (6, 0x80002000), (7, 0x11223344)] with memory := lock } (.word 0x187322AF#32)
      (fun t => t.readX 5 == 1#64 && t.memory == lock) = true := by decide

/-- F21, F25, F26: `rd` = `rs2`; signed and unsigned minimum. -/
theorem test_amo :
    runs { start cfg32 [(6, 0x80002000), (7, 1)] with memory := lock } (.word 0x007323AF#32)
      (fun t => t.readX 7 == 0x92345678#64 && Memory.read t.memory 0x80002000 == 0x79#8) &&
    runs { start cfg32 [(6, 0x80002000), (7, 1)] with memory := lock } (.word 0x807322AF#32)
      (fun t => t.memory == lock) &&
    runs { start cfg32 [(6, 0x80002000), (7, 1)] with memory := lock } (.word 0xC07322AF#32)
      (fun t => t.memory == [(0x80002000, 0x01#8)]) = true := by decide

/-- G1, G9, G14, G15, G19. -/
theorem test_csr :
    runs { start cfg32 [(6, 0xFFFFFFFF)] with fcsr := 0xA3#8 } (.word 0x001312F3#32)
      (fun t => t.readX 5 == 3#64 && t.fcsr == 0xBF#8) &&
    runs (start cfg32 []) (.word 0x002FD2F3#32) (fun t => t.fcsr == 0xE0#8) &&
    runs { start cfg32 [(6, 0x21)] with fcsr := 0x0C#8 } (.word 0x00331373#32)
      (fun t => t.readX 6 == 0x0C#64 && t.fcsr == 0x21#8) &&
    runs { start cfg32 [] with instret := 41 } (.word 0xC02022F3#32) (fun t => t.readX 5 == 0x29#64 && t.instret == 42) &&
    runs (start cfg32 [(6, 1)]) (.word 0xC02312F3#32) (trappedBy .illegalInstruction 0xC02312F3#64) = true := by decide

/-- RV32 with D and without Q, as the vectors of 96_test_vectors_fp.md, section 2.8. -/
def cfgD : Config := { withExt (fun e => { e with q := false }) with base := .rv32i }

/-- RV32 with F alone: FLEN is 32 (section 2.7). -/
def cfgF : Config := { withExt (fun e => { e with d := false, q := false }) with base := .rv32i }

/-- H2, H4, H9, H20: ties, canonical NaN, tininess after rounding. -/
theorem test_float_add_multiply :
    runs (floats (start cfgF []) [(2, 0x3F800000), (3, 0x33800000)]) (.word 0x003100D3#32)
      (fun t => t.readF 1 == 0x3F800000#128 && t.fcsr == 0x01#8) &&
    runs (floats (start cfgF []) [(2, 0x3F800000), (3, 0x33800000)]) (.word 0x003140D3#32)
      (fun t => t.readF 1 == 0x3F800001#128 && t.fcsr == 0x01#8) &&
    runs (floats (start cfgF []) [(2, 0xFFC12345), (3, 0x3F800000)]) (.word 0x003100D3#32)
      (fun t => t.readF 1 == 0x7FC00000#128 && t.fcsr == 0#8) &&
    runs (floats (start cfgF []) [(2, 0x00FFFFFF), (3, 0x3F000000)]) (.word 0x103100D3#32)
      (fun t => t.readF 1 == 0x00800000#128 && t.fcsr == 0x03#8) = true := by decide

/-- H22, H27, H36: quotient, root, one rounding. -/
theorem test_float_divide_root_fused :
    runs (floats (start cfgF []) [(2, 0x3F800000), (3, 0x40400000)]) (.word 0x183100D3#32)
      (fun t => t.readF 1 == 0x3EAAAAAB#128 && t.fcsr == 0x01#8) &&
    runs (floats (start cfgF []) [(2, 0x40000000)]) (.word 0x580100D3#32)
      (fun t => t.readF 1 == 0x3FB504F3#128 && t.fcsr == 0x01#8) &&
    runs (floats (start cfgF []) [(2, 0x3F800001), (3, 0x3F800001), (4, 0xBF800002)]) (.word 0x203100C3#32)
      (fun t => t.readF 1 == 0x28800000#128 && t.fcsr == 0#8) = true := by decide +kernel

/-- H6, H49, H52, H64, H85, H100. -/
theorem test_float_rest :
    runs { start cfgF [] with fcsr := 0xA0#8 } (.word 0x003170D3#32) (trappedBy .illegalInstruction 0x003170D3#64) &&
    runs (floats (start cfgF []) [(2, 0x7F800001), (3, 0x3F800000)]) (.word 0x283110D3#32)
      (fun t => t.readF 1 == 0x3F800000#128 && t.fcsr == 0x10#8) &&
    runs (floats (start cfgF []) [(2, 0xBFC00000)]) (.word 0xC00102D3#32)
      (fun t => t.readX 5 == 0xFFFFFFFE#64 && t.fcsr == 0x01#8) &&
    runs (floats (start cfgF []) [(2, 0xBF000000)]) (.word 0xC01122D3#32)
      (fun t => t.readX 5 == 0#64 && t.fcsr == 0x10#8) &&
    runs (floats (start cfgF []) [(2, 0x7F800001), (3, 0x3F800000)]) (.word 0xA03122D3#32)
      (fun t => t.readX 5 == 0#64 && t.fcsr == 0x10#8) &&
    runs (floats (start cfgF []) [(2, 0xFF800001)]) (.word 0xE00112D3#32) (fun t => t.readX 5 == 0x100#64) = true := by
  decide

/-- K12, K19, K27, K47: boxing, conversion from a value that is not boxed. -/
theorem test_double_and_boxing :
    runs (floats (start cfgD []) [(2, 0x3FB999999999999A)]) (.word 0x401100D3#32)
      (fun t => t.readF 1 == 0xFFFFFFFF3DCCCCCD#128 && t.fcsr == 0x01#8) &&
    runs (floats (start cfgD []) [(2, 0x3F800000)]) (.word 0x420100D3#32)
      (fun t => t.readF 1 == 0x7FF8000000000000#128 && t.fcsr == 0#8) &&
    runs (floats (start cfgD []) [(2, 0x41DFFFFFFFFFFFFF)]) (.word 0xC20102D3#32)
      (fun t => t.readX 5 == 0x7FFFFFFF#64 && t.fcsr == 0x10#8) &&
    runs (floats (start cfgD []) [(2, 0x3FF0000000000000), (3, 0xFFFFFFFF80000000)]) (.word 0x203100D3#32)
      (fun t => t.readF 1 == 0xFFFFFFFFFFC00000#128) = true := by decide

/-- Q3, Q8, Q14. -/
theorem test_quad :
    runs (floats (start Config.reset []) [(2, 0x3FFF0000000000000000000000000000),
        (3, 0x40008000000000000000000000000000)]) (.word 0x1E3130D3#32)
      (fun t => t.readF 1 == 0x3FFD5555555555555555555555555556#128 && t.fcsr == 0x01#8) &&
    runs (floats (start Config.reset []) [(2, 0x3FFD5555555555555555555555555555)]) (.word 0x403100D3#32)
      (fun t => t.readF 1 == 0xFFFFFFFFFFFFFFFFFFFFFFFF3EAAAAAB#128 && t.fcsr == 0x01#8) &&
    runs (start Config.reset [(6, 0x8000000000000000)]) (.word 0xD62300D3#32)
      (fun t => t.readF 1 == 0xC03E0000000000000000000000000000#128 && t.fcsr == 0#8) = true := by decide +kernel

/-- L3, L10, L20, L24, L33, L50. -/
theorem test_compressed :
    runs (start cfg32 [(2, 0x80008000)]) (.half 0x1FE4#16)
      (fun t => t.readX 9 == 0x800083FC#64 && t.pc == 0x80000002#64) &&
    runs { start Config.reset [(8, 0x80001000)] with memory := [(0x8000100F, 0xDD#8)] } (.half 0x6404#16)
      (fun t => t.readX 9 == 0xDD00000000000000#64) &&
    runs (start cfg32 []) (.half 0x2021#16) (fun t => t.readX 1 == 0x80000002#64 && t.pc == 0x80000008#64) &&
    runs (start Config.reset []) (.half 0x5501#16) (fun t => t.readX 10 == 0xFFFFFFFFFFFFFFE0#64) &&
    runs (start cfg32 [(8, 0x80000001)]) (.half 0x847D#16) (fun t => t.readX 8 == 0xFFFFFFFF#64) &&
    runs { start cfg32 [(8, 1)] with pc := 0x80000200#64 } (.half 0xF001#16) (fun t => t.pc == 0x80000100#64)
      = true := by decide

/-- B48, B49, B50, B51, B53, B54: fences only advance `pc`; the two exceptions. -/
theorem test_fences_and_exceptions :
    ([0x8330000F#32, 0x5331820F#32, 0x0100000F#32, 0x0000100F#32].all fun w =>
      runs (start cfg32 [(3, 9)]) (.word w) fun t => decide (t = (start cfg32 [(3, 9)]).retireTo 0x80000004#64)) &&
    runs (start cfg32 []) (.word 0x00000073#32) (trappedBy .environmentCall 0#64) &&
    runs (start cfg32 []) (.word 0x00100073#32) (trappedBy .breakpoint 0#64) = true := by decide

/-- A whole step fetches, decodes and executes (A22, L18). -/
theorem test_step :
    nextIs (step ((start Config.reset [(6, 0xFFFFFFFFFFFFFFFF), (7, 2)]).withFetchWord 32 0x007302B3))
      (fun t => t.readX 5 == 1#64 && t.pc == 0x80000004#64) &&
    nextIs (step ((start Config.reset []).withFetchWord 16 0x157D))
      (fun t => t.readX 10 == 0xFFFFFFFFFFFFFFFF#64 && t.pc == 0x80000002#64) = true := by decide

/-! ### Witnesses: the hypotheses of each statement are met together

Every result statement quantifies over states, so that a configuration `c` with the instruction well-formed gives the
state `start c []`, whose configuration is `c`. -/

/-- Running, at an aligned `pc`, with an instruction, a reserved code, and vacant memory there; a `pc` off IALIGN; under
an oracle an instruction that completes and one that traps. -/
theorem test_witness_StepRunsDecodedInstruction :
    let add := State.reset.withFetchWord 32 0x007302B3
    let bad := State.reset.withFetchWord 32 0x000310E7
    let nothing := { State.reset with pc := 0#64 }
    add.fetch = .code (.word 0x007302B3#32) { add with launched := true } ∧ add.status = .running ∧
    add.cfg.aligned add.pc = true ∧ decodesTo add.cfg (.word 0x007302B3#32) (.add 5 6 7) = true ∧
    bad.fetch = .code (.word 0x000310E7#32) { bad with launched := true } ∧
    (match decode bad.cfg (.word 0x000310E7#32) with
      | .error e => e == .reserved
      | .ok _ => false) = true ∧
    nothing.fetch = .fault 0#64 { nothing with launched := true } ∧ nothing.cfg.aligned nothing.pc = true ∧
    Config.reset.aligned 0x80000001#64 = false ∧ add.cfg.scMayFail = .never ∧
    (start cfgOracle []).cfg.scMayFail = .oracle ∧
    nextIs (exec .pause (start cfgOracle [])) isRunning = true ∧
    nextIs (exec .ecall (start cfgOracle [])) (fun t => !isRunning t) = true := by decide

theorem test_witness_StepKeepsInvariant :
    ((State.reset.withFetchWord 32 0x007302B3).inv && nextIs (step (State.reset.withFetchWord 32 0x007302B3)) isRunning)
      = true := by decide

/-- Plain bytes at the first and the last `pc` of the RAM, for a 16-bit and a 32-bit instruction; a second parcel past
the RAM; a first parcel past it; a run that starts at a device; a launched hart at a device that may be fetched from. -/
theorem test_witness_FetchReadsMemoryAtPc :
    ([0x80000000, 0x80000001, 0x80000002, 0x80000003, 0x8000FFFC, 0x8000FFFD, 0x8000FFFE, 0x8000FFFF].all fun a =>
      fetchable Config.reset a && !isIo Config.reset a) = true ∧ State.reset.stale = [] ∧
    isHalf Config.reset 0x0001#16 = true ∧ isHalf Config.reset 0x0003#16 = false ∧
    fetchable Config.reset 0x80010000 = false ∧ fetchable Config.reset 0x80010001 = false ∧
    State.reset.launched = false ∧ isIo cfgIo 0x1000 = true ∧
    (let c : Config := { cfgNoC with memmap := [{ device with fetch := true }] };
      ([0x1000, 0x1001, 0x1002, 0x1003, 0x100E, 0x100F].all fun a => fetchable c a && isIo c a) = true ∧
        (∀ p, isHalf c p = false) ∧ fetchable c 0x1010 = false) :=
  ⟨by decide, rfl, by decide, by decide, by decide, by decide, rfl, by decide, by decide, fun _ => rfl, by decide⟩

/-- A region that does not permit accesses of a parcel's width is not fetchable (20_memory.md R70). -/
theorem test_fetch_width :
    fetchable { Config.reset with memmap := [{ Config.ram with widths := [4] }] } 0x80000000 = false ∧
    nextIs (step (start { Config.reset with memmap := [{ Config.ram with widths := [1, 4, 8] }] } []))
      (trappedBy .instructionAccessFault 0x80000000#64) = true := by decide

/-- The second parcel of an instruction, past the RAM, is the one recorded (60_exceptions.md R612). -/
theorem test_fetch_second_parcel :
    nextIs (step { State.reset with pc := 0x8000FFFE#64, memory := [(0x8000FFFE, 0x03#8)] })
      (fun t => trappedBy .instructionAccessFault 0x80010000#64 t && t.pc == 0x8000FFFE#64) = true := by decide

/-- RESET_PC in an I/O region that may be fetched from traps at once; a misaligned one is refused
(70_reset_and_hazards.md R646). -/
theorem test_launch :
    nextIs (step { start { cfgIo with memmap := [{ device with fetch := true }] } [] with pc := 0x1000#64 })
      (trappedBy .instructionAccessFault 0x1000#64) = true ∧
    step { State.reset with pc := 0x80000001#64 } = .refused .misalignedResetPc ∧
    step { State.reset with pc := 0x80000001#64, launched := true } = .fault .misalignedPc :=
  ⟨by decide, rfl, rfl⟩

/-- An older byte left to see; a first parcel of a 32-bit instruction, and none after it. -/
theorem test_witness_FetchedByteIsCandidate :
    isIo State.reset.cfg 0x80000000 = false ∧ Memory.read State.reset.memory 0x80000000 ≠ 1#8 ∧
    { State.reset with stale := [(0x80000000, 1#8)] }.olderBytes 0x80000000 ≠ [] ∧
    (let s := { State.reset with pc := 0x8000FFFE#64, memory := [(0x8000FFFE, 0x03#8)] }
      let s1 := { s with launched := true }
      s.launchFails = false ∧ s1.fetchParcel s.pc = some (0x0003#16, s1) ∧ isHalf s.cfg 0x0003#16 = false ∧
        s1.fetchParcel (s.cfg.addX s.pc 2#64) = none) := by decide

theorem test_witness_DecodeInvertsEncode :
    allWellFormed Config.reset [.jal 31 0xFFFFF, .srai 31 31 63, .amomaxuD 31 31 31 1 1, .fnmaddQ 31 31 31 31 7, .cJ 0x7FF]
      = true := by decide

theorem test_witness_EncodeInvertsDecode : decodesTo Config.reset (.half 0x4595#16) (.cLi 11 5) = true := by decide

/-- A zero parcel fetched with C, and a zero and an all-ones word fetched where each is 32 bits long. -/
theorem test_witness_TwoPatternsAreIllegal :
    let ones := State.reset.withFetchWord 32 0xFFFFFFFF
    State.reset.fetch = .code (.half 0#16) { State.reset with launched := true } ∧
    (start cfgNoC []).fetch = .code (.word 0#32) { start cfgNoC [] with launched := true } ∧
    ones.fetch = .code (.word 0xFFFFFFFF#32) { ones with launched := true } := by decide

theorem test_witness_RaisingInstructionChangesNothing :
    State.reset.status = .running ∧ exec .ecall State.reset = .next (State.reset.trap .environmentCall 0#64 4) ∧
    exec .pause State.reset = .next (State.reset.afterPc 0x80000004#64) := ⟨rfl, rfl, rfl⟩

theorem test_witness_AbsentInstructionRaisesIllegal : (Instr.cLq 1 2 3).wellFormed Config.reset = false := by decide

theorem test_witness_Rv32eUpperRegistersRaiseIllegal :
    cfg32e.base = .rv32e ∧ (16 : Reg) ∈ (Instr.add 16 1 2).xregs ∧ 16 ≤ (16 : Reg).toNat ∧
    (31 : Reg) ∈ (Instr.add 0 31 2).xregs ∧ 16 ≤ (31 : Reg).toNat := by decide

/-- A record at an aligned and at a misaligned address, under each policy. -/
theorem test_witness_TrappedHartHaltsOrResumes :
    let c := { cfgNoC with trapPolicy := [(.breakpoint, .retry), (.environmentCall, .skip), (.loadAccessFault, .service)] }
    trapPolicy c .illegalInstruction = none ∧ trapPolicy c .environmentCall = some .skip ∧
    trapPolicy c .breakpoint = some .retry ∧ trapPolicy c .loadAccessFault = some .service ∧
    c.aligned (c.truncate (0x80000000#64 + BitVec.ofNat 64 4)) = true ∧
    c.aligned (c.truncate (0x80000000#64 + BitVec.ofNat 64 2)) = false ∧
    c.aligned (c.truncate 0x80000000#64) = true ∧ c.aligned (c.truncate 0x80000002#64) = false := by decide

/-- Services that write the last byte of an LR, the byte after it, and one byte twice; one that clears, one
that registers another. -/
theorem test_witness_TrappedHartHaltsOrResumes_service :
    let s := { State.reset with reservation := some ⟨[⟨0x80002000, 8⟩], 0x80002000, 4⟩, stale := [(1, 2#8)] }
    let e := fun (r : ServedReservation) (ws : List Host.Cell) =>
      ({ x := Vector.replicate 32 7#64, pc := 0, f := Vector.replicate 32 0#128, fcsr := 3#8, cycle := 4,
         time := 5, instret := 6, hpm := Vector.replicate 29 7, reservation := r, writes := ws } : ServiceEffect)
    (s.serve (e .keep [(0x80002003, 1#8)])).reservation = none ∧
    (s.serve (e .keep [(0x80002004, 1#8)])).reservation = s.reservation ∧
    (s.serve (e .clear [])).reservation = none ∧
    (s.serve (e (.register ⟨8, 4⟩ []) [(8, 1#8)])).reservation = some ⟨[⟨8, 4⟩], 8, 4⟩ ∧
    (s.serve (e .keep [])).instret = 6#64 ∧
    (let t := s.serve (e .keep [(0x80002004, 1#8), (0x80002004, 5#8)]);
      Memory.read t.memory 0x80002004 = 5#8 ∧ (0x80002004, 0#8) ∈ t.stale ∧ (1, 2#8) ∈ t.stale ∧ t.fcsr = 3#8) := by
  decide

theorem test_witness_ImmediateResults_RegisterResults_WordResults :
    allWellFormed (start Config.reset []).cfg [.lui 0 0x80000, .auipc 31 0, .addi 31 0 0x800, .slti 1 2 0x7FF,
      .sltiu 1 2 0xFFF, .xori 1 2 3, .ori 1 2 3, .andi 1 2 3, .slli 1 2 63, .srli 1 2 0, .srai 1 2 63, .add 0 0 0,
      .sub 31 31 31, .sll 1 2 3, .slt 1 2 3, .sltu 1 2 3, .xor 1 2 3, .srl 1 2 3, .sra 1 2 3, .or 1 2 3, .and 1 2 3,
      .addiw 1 2 0x800, .slliw 1 2 31, .srliw 1 2 0, .sraiw 1 2 31, .addw 1 2 3, .subw 1 2 3, .sllw 1 2 3,
      .srlw 1 2 3, .sraw 1 2 3] &&
    allWellFormed (start cfg32 []).cfg [.slli 1 2 31, .srli 1 2 31, .srai 1 2 0] = true := by decide

theorem test_witness_MultiplyResults_DivideResults :
    allWellFormed (start Config.reset []).cfg [.mul 1 2 3, .mulh 1 2 3, .mulhsu 1 2 3, .mulhu 1 2 3, .mulw 1 2 3,
      .div 1 2 3, .divu 1 2 3, .rem 1 2 3, .remu 1 2 3, .divw 1 2 3, .divuw 1 2 3, .remw 1 2 3, .remuw 1 2 3]
      = true := by decide

/-- A zero divisor, one whose low word alone is zero, and the overflow at 64 and at 32 bits. -/
theorem test_witness_DivisionCornersAreDefined :
    let s := start Config.reset [(6, 0x8000000000000000), (7, 0xFFFFFFFFFFFFFFFF), (8, 0xFFFFFFFF00000000),
      (9, 0x80000000)]
    s.natX 5 = 0 ∧ s.natW 8 = 0 ∧ s.natX 8 ≠ 0 ∧ s.intX 6 = -(2 ^ (s.cfg.xlen - 1)) ∧ s.intX 7 = -1 ∧
    s.intW 9 = -(2 ^ 31) ∧ s.intW 7 = -1 := by decide

theorem test_witness_ProductAndQuotientRebuildOperands :
    let s := start Config.reset [(6, 7), (7, 0)]
    (1 : Reg) ≠ 0 ∧ (2 : Reg) ≠ 0 ∧
    ([.mulhu 1 6 7, .mul 2 6 7, .divu 1 6 7, .remu 2 6 7, .div 1 6 7, .rem 2 6 7] : List Instr).all
      (fun i => i.wellFormed s.cfg && nextIs (exec i s) isRunning) = true := by decide

theorem test_witness_CompressedComputationResults :
    allWellFormed (start Config.reset []).cfg [.cAddi4spn 7 255, .cNop 0, .cAddi 31 0, .cAddiw 1 0x20, .cLi 0 0x3F,
      .cAddi16sp 0x20, .cLui 0 0x3F, .cSrli 7 63, .cSrai 0 1, .cAndi 0 0x20, .cSub 0 7, .cXor 0 7, .cOr 0 7, .cAnd 0 7,
      .cSubw 0 7, .cAddw 0 7, .cSlli 0 1, .cMv 0 31, .cAdd 0 1, .cSlli64 0, .cSrli64 7, .cSrai64 0] = true := by decide

/-- Aligned targets, from `pc` = 0x80000000 and `x1` = 0x80000101 (bit 0 is cleared). -/
theorem test_witness_JumpResults :
    allWellFormed Config.reset [.jal 0 0x80000, .jalr 1 1 0x7FF, .cJ 0x400, .cJr 1, .cJalr 31] &&
    allWellFormed cfg32 [.cJal 0x400] &&
    cfgNoC.aligned (cfgNoC.truncate (BitVec.ofInt 64 (0x80000000 + 2 * (2 : BitVec 20).toInt))) &&
    Config.reset.aligned (BitVec.ofNat 64 ((0x80000101#64).toNat / 2 * 2)) = true := by decide

/-- Equal, below as signed but above as unsigned, zero and not zero; the target of a misaligned offset without C. -/
theorem test_witness_BranchResults_MisalignedTargetsTrap :
    let s := start cfgNoC [(6, 5), (7, 5), (8, 0xFFFFFFFFFFFFFFFF)]
    s.intX 6 = s.intX 7 ∧ s.intX 8 < s.intX 6 ∧ s.natX 8 ≥ s.natX 6 ∧ s.natX 6 < s.natX 8 ∧ s.intX 6 ≥ s.intX 7 ∧
    s.intX 6 ≠ s.intX 8 ∧ s.cfg.aligned (s.target (2 : BitVec 12)) = true ∧
    s.cfg.aligned (s.target (1 : BitVec 12)) = false ∧ s.cfg.aligned (s.target (1 : BitVec 20)) = false ∧
    s.cfg.aligned (clearBit0 (s.ea 6 1)) = false ∧
    allWellFormed s.cfg [.beq 6 7 1, .bne 6 8 1, .blt 8 6 1, .bge 6 7 1, .bltu 6 8 1, .bgeu 8 6 1, .jal 1 1, .jalr 1 6 1]
      = true := by decide

theorem test_witness_BranchResults_compressed :
    let s := start Config.reset [(9, 1)]
    s.intX (0 : CReg).full = 0 ∧ s.intX (1 : CReg).full ≠ 0 ∧
    allWellFormed s.cfg [.cBeqz 0 0x80, .cBnez 1 0x7F] = true ∧ s.cfg.aligned s.pc = true ∧ s.cfg.ext.c = true ∧
    s.status = .running := by decide

theorem test_witness_FenceResults :
    allWellFormed Config.reset [.fence 8 3 3 1 0, .fence 0 1 0 0 1, .fence 5 3 3 3 4] = true ∧
    Config.reset.ext.zifencei = true := by decide

/-- The first and the last place of the RAM at each width, for reading and for writing. -/
theorem test_witness_LoadResults_StoreResults_FloatLoadStoreResults :
    ([1, 2, 4, 8, 16].all fun n => [0x80000000, 0x80010000 - n].all fun a =>
      (dataFault Config.reset .read (BitVec.ofNat 64 a) n).isNone &&
      (dataFault Config.reset .write (BitVec.ofNat 64 a) n).isNone) &&
    allWellFormed Config.reset [.lb 0 1 0x800, .lh 1 1 0, .lw 1 1 0, .lbu 1 1 0, .lhu 1 1 0, .lwu 1 1 0, .ld 1 1 0x7FF,
      .cLw 0 7 31, .cLd 0 7 31, .cLwsp 31 63, .cLdsp 31 63, .sb 1 0 0x800, .sh 1 2 0, .sw 1 2 0, .sd 1 2 0x7FF,
      .cSw 0 7 31, .cSd 0 7 31, .cSwsp 0 63, .cSdsp 31 63, .flw 0 1 0, .fld 0 1 0, .flq 31 1 0, .cFld 0 7 31,
      .cFldsp 0 63, .fsw 1 0 0, .fsd 1 0 0, .fsq 1 31 0, .cFsd 0 7 31, .cFsdsp 0 63] &&
    allWellFormed cfg32 [.cFlw 0 7 31, .cFlwsp 0 63, .cFsw 0 7 31, .cFswsp 0 63] &&
    (dataFault cfg32 .read 0x8000FFFC#64 4).isNone && (dataFault cfg32 .write 0x8000FFFC#64 4).isNone = true := by decide

/-- Each cause, and an address just past the RAM. -/
theorem test_witness_FaultingAccessTraps :
    let s := start Config.reset [(6, 0x80000001), (7, 0x80010000)]
    let cause := fun i : Instr => (i.footprint s).access.bind fun a => a.fault s.cfg
    cause (.lw 5 6 0) = some .loadAddressMisaligned ∧ cause (.lw 5 7 0) = some .loadAccessFault ∧
    cause (.sw 6 5 0) = some .storeAddressMisaligned ∧ cause (.sw 7 5 0) = some .storeAccessFault ∧
    cause (.lrD 5 6 0 0) = some .loadAddressMisaligned ∧ cause (.amoaddD 5 7 5 0 0) = some .storeAccessFault ∧
    allWellFormed s.cfg [.lw 5 6 0, .lw 5 7 0, .sw 6 5 0, .sw 7 5 0, .lrD 5 6 0 0, .amoaddD 5 7 5 0 0] = true := by decide

/-- Each effect of a misaligned access, at a width of 4; with Zam, an AMO; an address whose last byte is past the RAM.
-/
theorem test_witness_AlignedAccessesNeverMisaligned :
    let fault := fun (m : Misaligned) (k : AccessKind) (atomic : Bool) (ea : Word) =>
      (⟨k, atomic, ea, 4⟩ : Access).fault (cfgZam m)
    fault .addressMisaligned .read false 0x80000001 = some .loadAddressMisaligned ∧
    fault .accessFault .write false 0x80000001 = some .storeAccessFault ∧
    fault .complete .read false 0x80000001 = none ∧ fault .complete .read false 0x8000FFFD = some .loadAccessFault ∧
    fault .complete .read true 0x80000001 = some .loadAddressMisaligned ∧
    fault .complete .write true 0x80000001 = some .storeAddressMisaligned ∧
    fault .addressMisaligned .readWrite true 0x80000001 = none ∧
    fault .addressMisaligned .readWrite true 0x8000FFFD = some .storeAccessFault ∧
    (⟨.readWrite, true, 0x80000001, 4⟩ : Access).fault Config.reset = some .storeAddressMisaligned ∧
    fault .complete .read false 0x8000FFFC = none ∧ fault .complete .write false 0x80010000 = some .storeAccessFault := by
  decide

theorem test_witness_MemReadOrdersBytes :
    (0 < 1 ∧ 15 < 16) ∧ Config.reset.endian = .little ∧ { Config.reset with endian := .big }.endian = .big := by decide

/-- A device byte and a RAM byte, at the ends of an access; an access wider than XLEN and a misaligned one. -/
theorem test_witness_ReadBytesFollowTheRegions :
    isIo cfgIo 0x1000 = true ∧ isIo cfgIo 0x100F = true ∧ isIo cfgIo 0x1010 = false ∧ isIo cfgIo 0x80000000 = false ∧
    (start cfgIo []).operations 0x1008#64 8 = [[0, 1, 2, 3, 4, 5, 6, 7]] ∧ cfg32.xlen < 8 * 8 ∧
    (0x1001#64).toNat % 2 ≠ 0 := by decide

/-- An aligned store to a device is one operation: one entry of the output trace, in ascending address order
(20_memory.md R71; 60_exceptions.md R627). -/
theorem test_store_to_device :
    runs (start cfgIo [(6, 0x1008), (7, 0x1122334455667788)]) (.word 0x00733023#32)
      (fun t => t.ioTrace == [[(0x1008, 0x88#8), (0x1009, 0x77#8), (0x100A, 0x66#8), (0x100B, 0x55#8), (0x100C, 0x44#8),
        (0x100D, 0x33#8), (0x100E, 0x22#8), (0x100F, 0x11#8)]] && t.memory == []) &&
    runs { start { cfgIo with endian := .big } [(6, 0x1002), (7, 0xABCD)] with ioTrace := [[(0x1000, 1#8)]] }
      (.word 0x00731023#32)
      (fun t => t.ioTrace == [[(0x1000, 1#8)], [(0x1002, 0xAB#8), (0x1003, 0xCD#8)]]) = true := by decide

theorem test_witness_MemWriteOrdersBytes_LoadAfterStoreReturnsValue :
    16 ∈ [1, 2, 4, 8, 16] ∧ isIo cfgIo 0x100F = true ∧ isIo cfgIo 0x1010 = false ∧
    (∀ i < 16, isIo Config.reset ((0x8000FFF0 + i) % 2 ^ 64) = false) := by decide

/-- A reservation that covers the bytes, one that does not, and none. -/
theorem test_witness_LoadReserved_StoreConditional_Amo :
    let s := start Config.reset [(6, 0x80002000)]
    atomicFault s.cfg .read (s.readX 6) 4 = none ∧ atomicFault s.cfg .write (s.readX 6) 8 = none ∧
    atomicFault s.cfg .readWrite 0x8000FFF8#64 8 = none ∧ s.cfg.scMayFail = .never ∧ s.reservation = none ∧
    (⟨[⟨0x80002000, 8⟩], 0x80002000, 8⟩ : Reservation).covers s.cfg (s.readX 6) 8 = true ∧
    (⟨[⟨0x80002000, 4⟩], 0x80002000, 4⟩ : Reservation).covers s.cfg (s.readX 6) 8 = false ∧
    allWellFormed s.cfg [.lrW 5 6 0 0, .lrD 5 6 1 1, .scW 5 6 7 0 0, .scD 5 6 7 1 1, .amoswapW 5 6 7 0 0, .amoswapD 5 6 7 0 0,
      .amoaddW 5 6 7 0 0, .amoaddD 5 6 7 0 0, .amoxorW 5 6 7 0 0, .amoxorD 5 6 7 0 0, .amoandW 5 6 7 0 0,
      .amoandD 5 6 7 0 0, .amoorW 5 6 7 0 0, .amoorD 5 6 7 0 0, .amominW 5 6 7 0 0, .amominD 5 6 7 0 0,
      .amomaxW 5 6 7 0 0, .amomaxD 5 6 7 0 0, .amominuW 5 6 7 0 0, .amominuD 5 6 7 0 0, .amomaxuW 5 6 7 0 0,
      .amomaxuD 5 6 7 0 0] = true := by decide

/-- The first and the last misaligned place in the second granule, and one that straddles both. -/
theorem test_witness_AmoResults_granules :
    (⟨0x1000, 16, 8⟩ : AtomicGranule) ∈ cfgGranule.atomicGranules ∧ 0x1000 + 16 ≤ 2 ^ cfgGranule.xlen ∧
    (0x1000 + 1 * 8 ≤ 0x1009 ∧ 0x1009 + 4 ≤ 0x1000 + 2 * 8 ∧ 0x1009 + 4 ≤ 0x1000 + 16) ∧
    atomicFault cfgGranule .readWrite 0x1009 4 = none ∧ amoWhole cfgGranule 0x1009 4 = true ∧
    amoWhole cfgGranule 0x100B 4 = true ∧ amoWhole cfgGranule 0x1006 4 = false ∧ amoWhole cfgGranule 0x100D 4 = false ∧
    amoWhole (cfgZam .complete) 0x80000001 4 = false ∧ (cfgZam .complete).atomicGranules = [] := by decide

/-- A misaligned AMOSWAP.W inside a granule reaches its device as one operation (21_memory_model.md R126). -/
theorem test_amo_in_granule :
    runs (start cfgGranule [(6, 0x1009), (7, 0x11223344)]) (.word 0x087322AF#32)
      (fun t => t.ioTrace == [[(0x1009, 0x44#8), (0x100A, 0x33#8), (0x100B, 0x22#8), (0x100C, 0x11#8)]]) = true := by
  decide

/-- A compressed form counts as what it expands to; the shifts that expand to nothing, and what the base ISA does not
have, end a constrained loop (44_a.md R345; 49_c.md R534, R590). -/
theorem test_constrained_loop_instructions :
    ([.cAddi 5 1, .cAddiw 5 1, .cLi 5 1, .cLui 5 1, .cAddi16sp 1, .cAddi4spn 0 1, .cSlli 5 1, .cSrli 0 1, .cSrai 0 1,
      .cAndi 0 1, .cMv 5 6, .cAdd 5 6, .cAnd 0 1, .cOr 0 1, .cXor 0 1, .cSub 0 1, .cAddw 0 1, .cSubw 0 1, .cNop 0,
      .cJ 1, .cBeqz 0 1, .cBnez 0 1] : List Instr).all Instr.inConstrainedLoop &&
    ([.cSlli64 5, .cSrli64 0, .cSrai64 0, .cJr 1, .cJalr 1, .cLw 0 1 0, .cEbreak, .pause, .jalr 0 1 0, .mul 5 6 7] :
      List Instr).all (fun i => !i.inConstrainedLoop) = true := by decide

/-- The three forms of a reservation set: exact, a block of 16 bytes, and a row of a table that adds a span elsewhere.
-/
theorem test_witness_LoadReserved_sets :
    let table := { Config.reset with
      reservationSet := .table [⟨0x80002000, 16, 4, [⟨0x80008000, 8⟩]⟩, ⟨0x80002000, 16, 8, []⟩] }
    let holds := fun (c : Config) (a : Word) => (reserve c 0x80002004#64 4).covers c a 4
    holds Config.reset 0x80002004 = true ∧ holds Config.reset 0x80002000 = false ∧
    holds { Config.reset with reservationSet := .block 4 } 0x8000200C = true ∧
    holds { Config.reset with reservationSet := .block 4 } 0x80002010 = false ∧
    holds table 0x80008004 = true ∧ holds table 0x80008008 = false := by decide

/-- A loop of an LR at 0x80000000, an ADDI and an SC at 0x80000008: before the SC, or before the LR to retry it. -/
def loopState (failures patience : Nat) (retrying : Bool) : State :=
  { start cfgOracle [(6, 0x80002000), (7, 9)] with
    pc := if retrying then 0x80000000#64 else 0x80000008#64
    memory := [(0x80000000, 0xAF#8), (0x80000001, 0x22#8), (0x80000002, 0x03#8), (0x80000003, 0x10#8), (0x80000004, 0x13#8),
      (0x80000008, 0xAF#8), (0x80000009, 0x22#8), (0x8000000A, 0x73#8), (0x8000000B, 0x18#8)]
    reservation := some ⟨[⟨0x80002000, 4⟩], 0x80002000, 4⟩
    loop := some ⟨0x80000000#64, 0x80002000#64, 4, 0x80000000#64, 0x80000004#64, retrying, failures, patience⟩ }

/-- An LR that enters a loop and one that repeats it; memory with the eventuality property and without. -/
theorem test_witness_LoadReserved_loop :
    let s := loopState 3 5 true
    eventual s.cfg 0x80002000 4 = true ∧ eventual cfgIo 0x1000 4 = false ∧
    (s.loop.any fun m => m.retrying && m.lrPc == s.pc &&
      s.sequential (m.reach s.cfg s.pc).last 16 (m.reach s.cfg s.pc).first) = true ∧
    (s.loopAfter (.lrW 5 6 0 0) 0x80000004).any (fun l => l.failures == 3 && l.patience == 5 && !l.retrying) = true ∧
    ((start cfgOracle [(6, 0x80002000)]).loopAfter (.lrW 5 6 0 0) 0x80000004).any (fun l => l.failures == 0) = true := by
  decide

/-- The SC of a loop whose count exceeds the environment's patience succeeds; one that no reservation covers is counted.
-/
theorem test_witness_StoreConditional_loop :
    let s := loopState 6 5 false
    let lost := { s with reservation := none }
    s.scMustSucceed 0x80002000 4 = true ∧ (loopState 5 5 false).scMustSucceed 0x80002000 4 = false ∧
    s.reserved 0x80002000 4 = true ∧ atomicFault s.cfg .write (s.readX 6) 4 = none ∧
    nextIs (exec (.scW 5 6 7 0 0) lost) (fun t => t.readX 5 == 1#64 && t.draws == s.draws + 1) = true ∧
    (lost.loopAfter (.scW 5 6 7 0 0) 0x8000000C).any (fun l => l.failures == 7 && l.retrying) = true := by decide

/-- A failure code that is not the default, with no reservation; codes that are zero in XLEN bits are not legal. -/
theorem test_sc_fail_code :
    nextIs (exec (.scW 5 6 7 0 0) (start { Config.reset with scFailCode := 2 } [(6, 0x80002000)]))
      (fun t => t.readX 5 == 2#64) = true ∧
    ({ cfg32 with scFailCode := 2 }).legal = true ∧ ({ Config.reset with scFailCode := 0 }).legal = false ∧
    ({ cfg32 with scFailCode := 0x100000000 }).legal = false := by decide

/-- An SC that completes, and one that raises. -/
theorem test_witness_StoreConditionalClearsReservation :
    let s := { start Config.reset [(6, 0x80002000)] with reservation := some ⟨[⟨0x80002000, 8⟩], 0x80002000, 8⟩ }
    s.status = .running ∧ nextIs (exec (.scD 5 6 7 0 0) s) (fun t => isRunning t && t.reservation == none) = true ∧
    nextIs (exec (.scW 5 7 7 0 0) s) (fun t => !isRunning t && t.reservation == s.reservation) = true := by decide

/-- Forms that write and forms that do not. -/
theorem test_witness_FloatCsrResults :
    Config.reset.ext.f = true ∧ (1 : Reg) ≠ 0 ∧ (1 : BitVec 5) ≠ 0 ∧
    allWellFormed Config.reset [.csrrw 0 1 1, .csrrs 1 0 2, .csrrs 1 1 3, .csrrc 1 1 3, .csrrwi 1 31 2, .csrrsi 1 0 1,
      .csrrci 1 31 3] = true := by decide

theorem test_witness_CounterReads :
    Config.reset.ext.counters = true ∧ cfg32.is32 = true ∧
    ([0, 28].all fun k : Fin 29 => ({ cfg32 with hpmcounters := [3, 31] }).hpmcounters.contains (k.val + 3)) = true ∧
    allWellFormed { cfg32 with hpmcounters := [3, 31] } [.csrrs 1 0 0xC03, .csrrc 0 0 0xC1F, .csrrsi 1 0 0xC9F] = true ∧
    allWellFormed Config.reset [.csrrs 0 0 0xC02, .csrrc 1 0 0xC00, .csrrsi 1 0 0xC01, .csrrci 1 0 0xC02] = true ∧
    allWellFormed cfg32 [.csrrs 1 0 0xC80, .csrrc 1 0 0xC81, .csrrsi 1 0 0xC82, .csrrci 1 0 0xC82] = true := by decide

/-- An implemented hpmcounter and its upper half. -/
theorem test_hpmcounter_read :
    let s := start { cfg32 with hpmcounters := [31] } []
    let s1 := { s with hpm := s.hpm.set 28 0x0123456789ABCDEF#64 }
    nextIs (exec (.csrrs 5 0 0xC1F) s1) (fun t => t.readX 5 == 0x89ABCDEF#64) = true ∧
    nextIs (exec (.csrrs 5 0 0xC9F) s1) (fun t => t.readX 5 == 0x01234567#64) = true := by decide

/-- The ends of the ranges of addresses that exist, and their neighbours that do not; a read-only CSR and a writable
one. -/
theorem test_witness_CsrInstructionsRaiseIllegal :
    let c := { cfg32 with hpmcounters := [3, 31] }
    let reads := fun (c : Config) (a : BitVec 12) => nextIs (exec (.csrrs 5 0 a) (start c [])) isRunning
    ([0x001, 0x003, 0xC00, 0xC02, 0xC03, 0xC1F, 0xC80, 0xC82, 0xC83, 0xC9F].all (reads c)) = true ∧
    ([0x000, 0x004, 0xBFF, 0xC04, 0xC1E, 0xC20, 0xC7F, 0xC84, 0xCA0, 0xFFF].all fun a => !reads c a) = true ∧
    ([0xC03, 0xC1F, 0xC80, 0xC82].all fun a => !reads Config.reset a) = true ∧
    nextIs (exec (.csrrw 0 0 0xC02) State.reset) isRunning = false ∧
    nextIs (exec (.csrrw 0 0 0x003) State.reset) isRunning = true ∧
    State.reset.status = .running ∧ (Instr.csrrw 0 0 0xC02).wellFormed Config.reset = true := by decide

/-- Every rounding mode, static and dynamic, in the three formats. -/
theorem test_witness_FloatArithmetic_Fused_Conversion :
    ([0, 1, 2, 3, 4, 7].all fun rm => (State.reset.rounding rm).isSome) = true ∧
    allWellFormed Config.reset [.faddS 1 2 3 0, .fsubS 1 2 3 1, .fmulS 1 2 3 2, .fdivS 1 2 3 3, .fsqrtS 1 2 4,
      .fmaddS 1 2 3 4 7, .fmsubS 1 2 3 4 0, .fnmsubS 1 2 3 4 0, .fnmaddS 1 2 3 4 0, .faddD 1 2 3 0, .fsubD 1 2 3 0,
      .fmulD 1 2 3 0, .fdivD 1 2 3 0, .fsqrtD 1 2 0, .fmaddD 1 2 3 4 0, .fmsubD 1 2 3 4 0, .fnmsubD 1 2 3 4 0,
      .fnmaddD 1 2 3 4 0, .faddQ 1 2 3 0, .fsubQ 1 2 3 0, .fmulQ 1 2 3 0, .fdivQ 1 2 3 0, .fsqrtQ 1 2 0,
      .fmaddQ 1 2 3 4 0, .fmsubQ 1 2 3 4 0, .fnmsubQ 1 2 3 4 0, .fnmaddQ 1 2 3 4 0] = true ∧
    allWellFormed Config.reset [.fcvtWS 0 2 0, .fcvtWUS 1 2 0, .fcvtLS 1 2 0, .fcvtLUS 1 2 0, .fcvtWD 1 2 0, .fcvtWUD 1 2 0,
      .fcvtLD 1 2 0, .fcvtLUD 1 2 0, .fcvtWQ 1 2 0, .fcvtWUQ 1 2 0, .fcvtLQ 1 2 0, .fcvtLUQ 1 2 0, .fcvtSW 1 2 0,
      .fcvtSWU 1 2 0, .fcvtSL 1 2 0, .fcvtSLU 1 2 0, .fcvtDW 1 2 0, .fcvtDWU 1 2 0, .fcvtDL 1 2 0, .fcvtDLU 1 2 0,
      .fcvtQW 1 2 0, .fcvtQWU 1 2 0, .fcvtQL 1 2 0, .fcvtQLU 1 2 0, .fcvtSD 1 2 0, .fcvtDS 1 2 0, .fcvtSQ 1 2 0,
      .fcvtQS 1 2 0, .fcvtDQ 1 2 0, .fcvtQD 1 2 0] = true := by decide

/-- Single-precision patterns of every kind the clauses name: infinities, zeros, finite numbers, a negative one. -/
theorem test_witness_FloatArithmetic_operands :
    Fmt.value .s 0x7F800000#32 = .infinite false ∧ Fmt.value .s 0xFF800000#32 = .infinite true ∧
    Fmt.value .s 0x80000000#32 = .zero true ∧ Fmt.value .s 0x3F800000#32 = .normal false 0x800000 (-23) ∧
    Fmt.value .s 0xBF800000#32 = .normal true 0x800000 (-23) ∧
    (FValue.normal false 0x800000 (-23)).toRat + (FValue.normal false 0x800000 (-23)).toRat ≠ 0 ∧
    (FValue.normal false 0x800000 (-23)).toRat + (FValue.normal true 0x800000 (-23)).toRat = 0 ∧
    (FValue.normal false 0x800000 (-23)).toRat * (FValue.normal true 0x800000 (-23)).toRat ≠ 0 ∧
    (FValue.zero true).toRat * (FValue.normal true 0x800000 (-23)).toRat + (FValue.zero false).toRat = 0 := by
  refine ⟨by decide, by decide, by decide, by decide, by decide, ?_, ?_, ?_, ?_⟩ <;> norm_num [FValue.toRat]

/-- The invalid cases, division by zero, and the signs of zeros (46_f.md R413, R419). -/
theorem test_float_special_operands :
    let inf := 0x7F800000#32
    let one := 0x3F800000#32
    let zero := 0x00000000#32
    let minus := 0x80000000#32
    gives (Fmt.add .s .rne inf 0xFF800000#32) 0x7FC00000 flagNV &&
    gives (Fmt.mul .s .rne inf minus) 0x7FC00000 flagNV &&
    gives (Fmt.div .s .rne zero minus) 0x7FC00000 flagNV &&
    gives (Fmt.div .s .rne inf inf) 0x7FC00000 flagNV &&
    gives (Fmt.sqrt .s .rne 0xBF800000#32) 0x7FC00000 flagNV &&
    gives (Fmt.sqrt .s .rne minus) minus.toNat flagNone &&
    gives (Fmt.div .s .rne one minus) 0xFF800000 flagDZ &&
    gives (Fmt.div .s .rne one inf) zero.toNat flagNone &&
    gives (Fmt.add .s .rne one 0xBF800000#32) zero.toNat flagNone &&
    gives (Fmt.add .s .rdn one 0xBF800000#32) minus.toNat flagNone &&
    gives (Fmt.fma .s .rne inf zero one) 0x7FC00000 flagNV &&
    gives (Fmt.fma .s .rne inf one 0xFF800000#32) 0x7FC00000 flagNV &&
    gives (Fmt.fma .s .rne one inf zero) inf.toNat flagNone &&
    gives (Fmt.fma .s .rne one one inf) inf.toNat flagNone = true := by decide +kernel

/-- In range at a bound, just past it, both infinities, a NaN; exact and inexact (46_f.md R429). -/
theorem test_conversion_bounds :
    gives (Fmt.toInt .s .rne 32 true 0xCF000000#32) 0x80000000 flagNone &&
    gives (Fmt.toInt .s .rne 32 true 0x4F000000#32) 0x7FFFFFFF flagNV &&
    gives (Fmt.toInt .s .rne 32 false 0xFF800000#32) 0 flagNV &&
    gives (Fmt.toInt .s .rne 32 true 0x7F800000#32) 0x7FFFFFFF flagNV &&
    gives (Fmt.toInt .s .rne 32 false 0xFFC00000#32) 0xFFFFFFFF flagNV &&
    gives (Fmt.toInt .s .rne 32 false 0xBF000000#32) 0 flagNX &&
    gives (Fmt.toInt .s .rdn 32 false 0xBF000000#32) 0 flagNV &&
    gives (Fmt.ofInt .s .rne 0x1000001) 0x4B800000 flagNX &&
    gives (Fmt.ofInt .s .rne 0) 0 flagNone &&
    gives (Fmt.ofFormat .d .s .rne 0x80000001#32) 0xB6A0000000000000 flagNone &&
    gives (Fmt.ofFormat .s .d .rne 0xFFF0000000000000#64) 0xFF800000 flagNone = true := by decide +kernel

theorem test_witness_SignInjection_Move :
    allWellFormed Config.reset [.fsgnjS 0 31 1, .fsgnjnS 1 2 3, .fsgnjxS 1 2 3, .fsgnjD 1 2 3, .fsgnjnD 1 2 3, .fsgnjxD 1 2 3,
      .fsgnjQ 1 2 3, .fsgnjnQ 1 2 3, .fsgnjxQ 1 2 3, .fmvXW 0 1, .fmvWX 0 1, .fmvXD 1 2, .fmvDX 1 2] = true := by decide

/-- Zeros of both signs, numbers of both signs, and infinities, by sign and magnitude. -/
theorem test_witness_MinMax_Compare_order :
    signedMagnitude 0x80000000#32 = signedMagnitude 0x00000000#32 ∧
    signedMagnitude 0xFF800000#32 < signedMagnitude 0xBF800000#32 ∧
    signedMagnitude 0x80000001#32 < signedMagnitude 0x80000000#32 ∧
    signedMagnitude 0x7F7FFFFF#32 < signedMagnitude 0x7F800000#32 ∧
    gives (Fmt.min .s 0x00000000#32 0x80000000#32) 0x80000000 flagNone = true ∧
    gives (Fmt.max .s 0x80000000#32 0x00000000#32) 0 flagNone = true ∧
    Fmt.feq .s 0x80000000#32 0x00000000#32 = (true, flagNone) := by decide +kernel

/-- Both NaN, either alone, neither; in a signaling and a quiet form. -/
theorem test_witness_MinMax_Compare_NaN :
    let s := floats (start Config.reset []) [(1, box Config.reset .s 0x7F800001#32), (2, box Config.reset .s 0x7FC00000#32),
      (3, box Config.reset .s 0x80000000#32)]
    let v := fun r : Reg => Fmt.value .s (s.readFp .s r)
    (v 1).isSignaling = true ∧ (v 2).isNaN = true ∧ (v 2).isSignaling = false ∧ (v 3).isNaN = false ∧
    (v 3).isZero = true ∧
    allWellFormed s.cfg [.fminS 4 1 2, .fmaxS 4 3 2, .fminD 4 1 2, .fmaxD 4 1 2, .fminQ 4 1 2, .fmaxQ 4 1 2, .feqS 0 1 2,
      .fltS 4 1 2, .fleS 4 1 2, .feqD 4 1 2, .fltD 4 1 2, .fleD 4 1 2, .feqQ 4 1 2, .fltQ 4 1 2, .fleQ 4 1 2] = true := by
  decide

/-- A pattern of each class, at the ends of its fields. -/
theorem test_witness_ClassifyResults :
    let e := fun b : Nat => b / 2 ^ 23 % 2 ^ 8
    let t := fun b : Nat => b % 2 ^ 23
    e 0xFF800000 = 255 ∧ t 0xFF800000 = 0 ∧ e 0x7F800001 = 255 ∧ t 0x7F800001 ≠ 0 ∧ t 0x7FBFFFFF < 2 ^ 22 ∧
    ¬ t 0x7FC00000 < 2 ^ 22 ∧ e 0x80000000 = 0 ∧ t 0x80000000 = 0 ∧ e 0x007FFFFF = 0 ∧ t 0x007FFFFF ≠ 0 ∧
    e 0x00800000 = 1 ∧ e 0x7F7FFFFF = 254 ∧
    allWellFormed Config.reset [.fclassS 0 1, .fclassD 1 2, .fclassQ 1 2] = true := by decide

/-- Static 101 and 110, and dynamic with `frm` at 101 and 111. -/
theorem test_witness_ReservedRoundingRaisesIllegal :
    5 ≤ ((0b10100000#8).extractLsb' 5 3).toNat ∧ 5 ≤ ((0b11100000#8).extractLsb' 5 3).toNat ∧
    State.reset.rounding 0b101#3 = none ∧ State.reset.rounding 0b110#3 = none ∧
    State.reset.rounding 0b100#3 = some .rmm ∧ { State.reset with fcsr := 0b01100000#8 }.rounding 0b111#3 = some .rup ∧
    { State.reset with fcsr := 0b10100000#8 }.rounding 0b111#3 = none := by decide

theorem test_witness_AccruedFlagsAreSticky_Frames :
    ((Instr.add 5 6 7).footprint State.reset).counters = false ∧ State.reset.status = .running ∧
    nextIs (exec (.add 5 6 7) State.reset) isRunning = true ∧
    ((Instr.add 5 6 7).footprint State.reset).x ≠ some 6 ∧ ((Instr.add 5 6 7).footprint State.reset).f ≠ some 5 ∧
    ((Instr.add 5 6 7).footprint State.reset).fcsr = false ∧
    ((Instr.add 5 6 7).footprint State.reset).storedBytes Config.reset = [] ∧
    0x80000002 ∉ ((Instr.sh 6 7 0).footprint (start Config.reset [(6, 0x80000000)])).storedBytes Config.reset ∧
    0x80000001 ∈ ((Instr.sh 6 7 0).footprint (start Config.reset [(6, 0x80000000)])).storedBytes Config.reset := by
  decide

/-- A boxed and an unboxed single. -/
theorem test_witness_BoxedValuesReadBack :
    Fmt.s.width ≤ Config.reset.flen ∧ Fmt.q.width ≤ Config.reset.flen ∧
    (∀ k < 64, 32 ≤ k → (0xFFFFFFFF3F800000#128).getLsbD k = true) ∧ cfgD.flen = 64 ∧
    (∃ k < cfgD.flen, 32 ≤ k ∧ (0x3F800000#128).getLsbD k = false) :=
  ⟨by decide, by decide, by decide, by decide, 32, by decide, by decide, by decide⟩

/-- A multiple, below the middle, the middle, and above it. -/
theorem test_witness_RoundingPicksTheRightNeighbour :
    0 < 2 ∧ 8 % 2 ^ 2 = 0 ∧ 9 % 2 ^ 2 ≠ 0 ∧ 2 * (9 % 2 ^ 2) < 2 ^ 2 ∧ 2 * (10 % 2 ^ 2) = 2 ^ 2 ∧ 2 ^ 2 < 2 * (11 % 2 ^ 2) := by
  decide

/-- Rounded to 24 bits a number reaches 2^128, lies between, is 2^-126, or lies below it. -/
theorem test_witness_RoundingPicksTheRightNeighbour_ranges :
    (2 : ℚ) ^ (((Fmt.bias .s : Nat) : Int) + 1) ≤ (roundToGrid .rne false 0x1FFFFFF 103 104).1 * 2 ^ (104 : Int) ∧
    ((roundToGrid .rtz false 0x1FFFFFF 103 104).1 : ℚ) * 2 ^ (104 : Int) < 2 ^ (((Fmt.bias .s : Nat) : Int) + 1) ∧
    (2 : ℚ) ^ (1 - ((Fmt.bias .s : Nat) : Int)) ≤ (roundToGrid .rne false 1 (-126) (-149)).1 * 2 ^ (-149 : Int) ∧
    ((roundToGrid .rne false 1 (-127) (-150)).1 : ℚ) * 2 ^ (-150 : Int) < 2 ^ (1 - ((Fmt.bias .s : Nat) : Int)) := by
  have h1 : (roundToGrid .rne false 0x1FFFFFF 103 104).1 = 2 ^ 24 := by decide
  have h2 : (roundToGrid .rtz false 0x1FFFFFF 103 104).1 = 2 ^ 24 - 1 := by decide
  have h3 : (roundToGrid .rne false 1 (-126) (-149)).1 = 2 ^ 23 := by decide
  have h4 : (roundToGrid .rne false 1 (-127) (-150)).1 = 2 ^ 23 := by decide
  rw [h1, h2, h3, h4]
  norm_num [Fmt.bias]

/-- Overflow outwards and inwards, the largest subnormal carried to 2^-126, an exact and an inexact tiny number. -/
theorem test_round_ranges :
    gives (Fmt.round .s .rne true 1 128) 0xFF800000 (flagOF ||| flagNX) &&
    gives (Fmt.round .s .rtz true 1 128) 0xFF7FFFFF (flagOF ||| flagNX) &&
    gives (Fmt.round .s .rup false 0xFFFFFF (-150)) 0x00800000 (flagUF ||| flagNX) &&
    gives (Fmt.round .s .rne false 1 (-149)) 0x00000001 flagNone &&
    gives (Fmt.round .s .rne true 1 (-150)) 0x80000000 (flagUF ||| flagNX) = true := by decide +kernel

/-- The largest and the smallest values of the two finite kinds. -/
theorem test_witness_RepresentableValuesRoundToThemselves :
    Fmt.value .s 0x7F7FFFFF#32 = .normal false 0xFFFFFF 104 ∧ Fmt.value .s 0x00800000#32 = .normal false 0x800000 (-149) ∧
    Fmt.value .s 0x807FFFFF#32 = .subnormal true 0x7FFFFF (-149) ∧ Fmt.value .s 0x00000001#32 = .subnormal false 1 (-149) ∧
    Fmt.value .d 0x0000000000000001#64 = .subnormal false 1 (-1074) := by decide

/-- Two NaNs, and an infinity times a zero. -/
theorem test_witness_NaNOperandsGiveCanonicalNaN :
    (Fmt.value .s 0x7FC00000#32).isNaN = true ∧ (Fmt.value .d 0x7FF0000000000001#64).isSignaling = true ∧
    (Fmt.value .s 0xFF800000#32).isInfinite = true ∧ (Fmt.value .s 0x80000000#32).isZero = true := by decide

end Sys2Proof.Tests
end

section
/-! PROOFS. The effective rounding mode (10_state.md R36; 46_f.md R403, R404). -/

namespace Sys2Proof.Machine

/-! ### Rounding modes -/

/-- The codes 0 to 4 name a mode, 5 to 7 none (10_state.md R36). -/
theorem Rounding.ofBits_eq_none_iff (m : BitVec 3) : Rounding.ofBits m = none ↔ 5 ≤ m.toNat := by
  revert m; decide

theorem State.rounding_static (s : State) {rm : BitVec 3} (h : rm ≠ 0b111#3) :
    s.rounding rm = Rounding.ofBits rm := by
  unfold State.rounding; rw [if_neg h]

theorem State.rounding_dynamic (s : State) : s.rounding 0b111#3 = Rounding.ofBits s.frm := rfl

theorem State.rounding_eq_none (s : State) {rm : BitVec 3}
    (h : rm = 0b101#3 ∨ rm = 0b110#3 ∨ (rm = 0b111#3 ∧ 5 ≤ s.frm.toNat)) : s.rounding rm = none := by
  obtain rfl | rfl | ⟨rfl, hfrm⟩ := h
  · rfl
  · rfl
  · rw [State.rounding_dynamic, Rounding.ofBits_eq_none_iff]; exact hfrm

/-- Settles O53: every instruction with an `rm` field is `withRounding` at that field, which looks at the mode first. -/
theorem reservedRoundingRaisesIllegal : Obligations.ReservedRoundingRaisesIllegal := by
  have names : ∀ m : BitVec 3, Rounding.ofBits m =
      if m = 0b000#3 then some Rounding.rne else if m = 0b001#3 then some .rtz else if m = 0b010#3 then some .rdn
      else if m = 0b011#3 then some .rup else if m = 0b100#3 then some .rmm else none := by decide
  constructor
  · rintro s rm _ rfl
    exact ⟨fun h => (s.rounding_static h).trans (names rm), fun h => h ▸ names s.frm⟩
  · intro s rd rs1 rs2 rs3 rm hrm i hi
    have raises := fun (j : Instr) => withRounding_of_none j s (s.rounding_eq_none hrm)
    obtain h | h | h := hi <;> fin_cases h <;> exact raises _ _

end Sys2Proof.Machine
end

section
/-! PROOFS. The CSR instructions on the views of `fcsr` and, where they write nothing, on the counters (10_state.md
R34 to R43; 45_zicsr_counters.md). -/

namespace Sys2Proof.Machine

/-! ### Which CSR an address names -/

theorem csrAt_fflags {c : Config} (h : c.ext.f = true) : csrAt c 0x001#12 = some .fflags := by
  unfold csrAt; simp [h]

theorem csrAt_frm {c : Config} (h : c.ext.f = true) : csrAt c 0x002#12 = some .frm := by
  unfold csrAt; simp [h]

theorem csrAt_fcsr {c : Config} (h : c.ext.f = true) : csrAt c 0x003#12 = some .fcsr := by
  unfold csrAt; simp [h]

theorem counterPresent_lt {c : Config} {n : Nat} (h : counterPresent c n = true) : n < 32 := by
  simp only [counterPresent, Bool.and_eq_true, Bool.or_eq_true, decide_eq_true_eq] at h
  omega

theorem csrAt_counter {c : Config} {n : Nat} (h : counterPresent c n = true) :
    csrAt c (BitVec.ofNat 12 (0xC00 + n)) = some (.counter n) := by
  have hn := counterPresent_lt h
  have ha : (BitVec.ofNat 12 (0xC00 + n)).toNat = 0xC00 + n := Nat.mod_eq_of_lt (by omega)
  unfold csrAt
  simp only [ha, Nat.add_sub_cancel_left, h, if_true]
  rw [if_neg (by omega), if_neg (by omega), if_neg (by omega), if_pos (by omega)]

theorem csrAt_counterHigh {c : Config} {n : Nat} (h32 : c.is32 = true) (h : counterPresent c n = true) :
    csrAt c (BitVec.ofNat 12 (0xC80 + n)) = some (.counterHigh n) := by
  have hn := counterPresent_lt h
  have ha : (BitVec.ofNat 12 (0xC80 + n)).toNat = 0xC80 + n := Nat.mod_eq_of_lt (by omega)
  unfold csrAt
  simp only [ha, Nat.add_sub_cancel_left, h, h32, Bool.and_self, if_true]
  rw [if_neg (by omega), if_neg (by omega), if_neg (by omega), if_neg (by omega), if_pos (by omega)]

/-! ### The two ways a CSR instruction completes -/

/-- A form that writes nothing answers the value read (45_zicsr_counters.md R371, R376, R377). -/
theorem csrOp_of_read (i : Instr) (s : State) {csr : BitVec 12} {r : Csr} (h : csrAt s.cfg csr = some r) (rd : Reg)
    (src : Word) (f : Word → Word → Word) :
    csrOp i rd csr true false src f s = .next ((s.csrRead r).2.afterX rd (s.csrRead r).1 i.ilen) := by
  rw [csrOp_of_ok i s h (Bool.false_and _)]; rfl

/-- Reading `r` in `s` gives `old` and has no effect, and writing it sets `fcsr` by `write`: the views of `fcsr`
(10_state.md R35 to R38). -/
structure Csr.ViewsFcsr (r : Csr) (s : State) (old : Word) (write : Word → BitVec 8) : Prop where
  read : s.csrRead r = (old, s)
  write : ∀ v, s.csrWrite r v = { s with fcsr := write v }
  writable : r.readOnly = false

theorem viewsFcsr_fflags (s : State) :
    Csr.fflags.ViewsFcsr s (s.fflags.setWidth 64) fun v => s.frm ++ v.extractLsb' 0 5 where
  read := rfl
  write v := by
    rw [← BitVec.setWidth_eq_extractLsb' (by decide)]; rfl
  writable := rfl

theorem viewsFcsr_frm (s : State) :
    Csr.frm.ViewsFcsr s (s.frm.setWidth 64) fun v => v.extractLsb' 0 3 ++ s.fflags where
  read := rfl
  write v := by rw [← BitVec.setWidth_eq_extractLsb' (by decide)]; rfl
  writable := rfl

theorem viewsFcsr_fcsr (s : State) :
    Csr.fcsr.ViewsFcsr s (s.fcsr.setWidth 64) fun v => v.extractLsb' 0 8 where
  read := rfl
  write v := by rw [← BitVec.setWidth_eq_extractLsb' (by decide)]; rfl
  writable := rfl

section Views

variable (i : Instr) {s : State} {csr : BitVec 12} {r : Csr} {old : Word} {write : Word → BitVec 8}
  (h : csrAt s.cfg csr = some r) (hv : r.ViewsFcsr s old write) (rd : Reg) (src : Word)

include h hv

/-- A set or clear form on a view of `fcsr` (45_zicsr_counters.md R376, R377): it writes where its source field is not
zero. -/
theorem csrOp_modify_view (writes : Bool) (f : Word → Word → Word) :
    csrOp i rd csr true writes src f s = .next
      (if writes then { s.afterX rd old i.ilen with fcsr := write (f old src) } else s.afterX rd old i.ilen) := by
  rw [csrOp_of_ok i s h (by rw [hv.writable, Bool.and_false]), hv.read]
  cases writes with
  | true => simp only [if_true, hv.write]; rfl
  | false => rfl

/-- CSRRW and CSRRWI on a view of `fcsr`: with `rd` = x0 they read nothing, and `x` is unchanged either way (R375). -/
theorem csrOp_swap_view :
    csrOp i rd csr (rd != 0#5) true src (fun _ new => new) s = .next
      { s.afterX rd old i.ilen with fcsr := write src } := by
  by_cases hrd : rd = 0#5
  · subst hrd
    rw [csrOp_of_ok i s h (by rw [hv.writable, Bool.and_false])]
    simp only [bne_self_eq_false, Bool.false_eq_true, if_false, if_true, hv.write]
    rfl
  · rw [bne_iff_ne.2 hrd, csrOp_modify_view i h hv, if_pos rfl]

end Views

section Forms

variable {s : State} {csr : BitVec 12} {r : Csr} {old : Word} {write : Word → BitVec 8}
  (h : csrAt s.cfg csr = some r) (hv : r.ViewsFcsr s old write) {rd : Reg} {src : Word} {i : Instr} (hlen : i.ilen = 4)

include h hv hlen

/-- What CSRRW and CSRRWI answer. -/
theorem exec_swap_view (hexec : exec i s = legal i s (csrOp i rd csr (rd != 0#5) true src (fun _ new => new) s))
    (hwf : i.wellFormed s.cfg = true) :
    (True → exec i s = .next { s.afterX rd old 4 with fcsr := write src }) ∧
      (¬ True → exec i s = .next (s.afterX rd old 4)) := by
  rw [hexec, legal_of_wf i s hwf, csrOp_swap_view i h hv, hlen]
  exact ⟨fun _ => rfl, fun hn => absurd trivial hn⟩

/-- What the set and clear forms answer: `field` is the source field, a register number or an immediate. -/
theorem exec_modify_view {field : BitVec 5} {f : Word → Word → Word}
    (hexec : exec i s = legal i s (csrOp i rd csr true (field != 0#5) src f s)) (hwf : i.wellFormed s.cfg = true) :
    (field ≠ 0#5 → exec i s = .next { s.afterX rd old 4 with fcsr := write (f old src) }) ∧
      (¬ field ≠ 0#5 → exec i s = .next (s.afterX rd old 4)) := by
  rw [hexec, legal_of_wf i s hwf, csrOp_modify_view i h hv, hlen]
  exact ⟨fun hn => by rw [if_pos (bne_iff_ne.2 hn)], fun hn => by rw [if_neg (mt bne_iff_ne.1 hn)]⟩

end Forms

/-- Settles O42: each of the three addresses names a view of `fcsr`, and the six forms act alike on any view. -/
theorem floatCsrResults : Obligations.FloatCsrResults := by
  intro s rd rs1 uimm csr hf go frm fflags
  have forms : ∀ {r old write}, csrAt s.cfg csr = some r → r.ViewsFcsr s old write → go old write := by
    intro r old write h hv
    exact ⟨exec_swap_view h hv rfl rfl, exec_modify_view h hv rfl rfl, exec_modify_view h hv rfl rfl,
      exec_swap_view h hv rfl rfl, exec_modify_view h hv rfl rfl, exec_modify_view h hv rfl rfl⟩
  refine ⟨?_, ?_, ?_⟩ <;> rintro rfl
  · exact forms (csrAt_fflags hf) (viewsFcsr_fflags s)
  · exact forms (csrAt_frm hf) (viewsFcsr_frm s)
  · exact forms (csrAt_fcsr hf) (viewsFcsr_fcsr s)

/-! ### Counters -/

theorem Config.truncate_truncate (c : Config) (v : Word) : c.truncate (c.truncate v) = c.truncate v := by
  rw [Config.truncate_eq_iff, Config.truncate_toNat, Nat.mod_mod]

/-- `afterX` narrows the value to XLEN bits itself. -/
theorem State.afterX_truncate (s : State) (rd : Reg) (v : Word) (len : Nat) :
    s.afterX rd (s.cfg.truncate v) len = s.afterX rd v len := by
  unfold State.afterX State.afterLink; rw [Config.truncate_truncate]

/-- `cycle`, `time` and `instret` exist wherever Counters do. -/
theorem counterPresent_fixed {c : Config} (hc : c.ext.counters = true) {n : Nat} (hn : n < 3) :
    counterPresent c n = true := by
  simp [counterPresent, hc, hn]

theorem counterPresent_hpm {c : Config} (hc : c.ext.counters = true) {n : Nat} (hn : n < 32)
    (h : n ∈ c.hpmcounters) : counterPresent c n = true := by
  simp [counterPresent, hc, hn, h]

/-- An hpmcounter is read as it stands. -/
theorem State.counter_hpm (s : State) (k : Fin 29) : s.counter (k.val + 3) = (s.hpm[k], s) := by
  simp [State.counter]

section Reads

variable {s u : State} {n : Nat} {v : BitVec 64} (hp : counterPresent s.cfg n = true) (hr : s.counter n = (v, u))
  (i : Instr) (rd : Reg) (src : Word) (f : Word → Word → Word)

include hp hr

/-- Reading a counter writes the whole of it on RV64 and its low half on RV32 (10_state.md R42). -/
theorem csrOp_of_counter :
    csrOp i rd (BitVec.ofNat 12 (0xC00 + n)) true false src f s = .next (u.afterX rd v i.ilen) := by
  have hcfg : u.cfg = s.cfg := by simpa only [hr] using congrArg State.cfg (s.counter_snd n)
  rw [csrOp_of_read i s (csrAt_counter hp)]
  simp only [State.csrRead, hr, ← hcfg, State.afterX_truncate]

/-- The `H` address of a counter gives its high half, on RV32 (R42). -/
theorem csrOp_of_counterHigh (h32 : s.cfg.is32 = true) :
    csrOp i rd (BitVec.ofNat 12 (0xC80 + n)) true false src f s =
      .next (u.afterX rd ((v.extractLsb' 32 32).setWidth 64) i.ilen) := by
  rw [csrOp_of_read i s (csrAt_counterHigh h32 hp)]
  simp only [State.csrRead, hr]; rfl

end Reads

/-- Settles O43: the four forms that write nothing all answer what `csrOp` answers for a read, which `State.counter`
gives counter by counter. -/
theorem counterReads : Obligations.CounterReads := by
  intro s rd hc forms high
  have reads : ∀ (csr : BitVec 12) (done : Result → Prop) (t : State),
      (∀ i src f, i.ilen = 4 → csrOp i rd csr true false src f s = .next t) →
      done (.next t) → forms csr done := by
    intro csr done t h hd
    have form : ∀ {i : Instr} {src : Word} {f : Word → Word → Word}, i.ilen = 4 →
        exec i s = legal i s (csrOp i rd csr true false src f s) → i.wellFormed s.cfg = true → done (exec i s) := by
      intro i src f hlen hexec hwf
      rw [hexec, legal_of_wf i s hwf, h i src f hlen]; exact hd
    exact ⟨form rfl rfl, form rfl rfl, form rfl rfl, form rfl rfl⟩
  clear_value forms -- from here on `reads` says all that is needed of the forms
  have whole : ∀ {csr n v u done}, csr = BitVec.ofNat 12 (0xC00 + n) → counterPresent s.cfg n = true →
      s.counter n = (v, u) → done (.next (u.afterX rd v 4)) → forms csr done :=
    fun hcsr hp hr => reads _ _ _ fun i src f hlen => hcsr ▸ hlen ▸ csrOp_of_counter hp hr i rd src f
  have upper : ∀ {csr n v u done}, s.cfg.is32 = true → csr = BitVec.ofNat 12 (0xC80 + n) →
      counterPresent s.cfg n = true → s.counter n = (v, u) →
      done (.next (u.afterX rd (high v) 4)) → forms csr done :=
    fun h32 hcsr hp hr => reads _ _ _ fun i src f hlen => hcsr ▸ hlen ▸ csrOp_of_counterHigh hp hr i rd src f h32
  have cycle := counterPresent_fixed hc (n := 0) (by decide)
  have time := counterPresent_fixed hc (n := 1) (by decide)
  have instret := counterPresent_fixed hc (n := 2) (by decide)
  refine ⟨?_, ?_, ?_, fun h32 => ⟨?_, ?_, ?_⟩, fun k hk => ?_⟩
  · exact whole rfl instret rfl rfl
  · exact whole rfl cycle rfl ⟨_, rfl⟩
  · exact whole rfl time rfl ⟨_, rfl⟩
  · exact upper h32 rfl instret rfl rfl
  · exact upper h32 rfl cycle rfl ⟨_, rfl⟩
  · exact upper h32 rfl time rfl ⟨_, rfl⟩
  · have hp := counterPresent_hpm hc (by omega) hk
    exact ⟨whole rfl hp (s.counter_hpm k) rfl, fun h32 => upper h32 rfl hp (s.counter_hpm k) rfl⟩

end Sys2Proof.Machine
end

section
/-! PROOFS. The shape of every meaning, and what each shape may change of the registers and of `fcsr` (10_state.md
R21, R28, R32, R37). -/

namespace Sys2Proof.Machine

/-! ### The shapes of the meanings

Every meaning is one of some twenty shapes, which `FloatOps.lean`, `Alu.lean` and `Ops.lean` define; what is proved of
each shape holds of every instruction. -/

/-- The results that the shapes give for the instruction `i` in `s`, each with the footprint it stays in. -/
inductive Shape (i : Instr) (s : State) : Footprint → Result → Prop
  | illegal : Shape i s {} (illegal i s)
  | raise (cause : Cause) (tval : Word) (len : Nat) : Shape i s {} (legal i s (raise cause tval len s))
  | noEffect : Shape i s {} (noEffect i s)
  | fenceI : Shape i s { candidates := true } (legal i s (retire i { s with stale := [] }))
  | setReg (rd : Reg) (v : Word) : Shape i s { x := some rd } (setReg i rd v s)
  | setReg_x0 (v : Word) : Shape i s {} (setReg i 0#5 v s)
  | branch (test : (w : Nat) → BitVec w → BitVec w → Bool) (rs1 rs2 : Reg) (target : Word) :
      Shape i s {} (branch i test rs1 rs2 target s)
  | jumpLink (rd : Reg) (target : Word) : Shape i s { x := some rd } (jumpLink i rd target s)
  | jumpLink_x0 (target : Word) : Shape i s {} (jumpLink i 0#5 target s)
  | loadX (n : Nat) (sgn : Bool) (rd : Reg) (ea : Word) :
      Shape i s { x := some rd, access := some ⟨.read, false, ea, n⟩ } (loadX i n sgn rd ea s)
  | storeX (n : Nat) (rs2 : Reg) (ea : Word) :
      Shape i s { access := some ⟨.write, false, ea, n⟩ } (storeX i n rs2 ea s)
  | loadReserved (n : Nat) (rd rs1 : Reg) :
      Shape i s { x := some rd, access := some ⟨.read, true, s.readX rs1, n⟩, reservation := true }
        (legal i s (loadReserved i n rd rs1 s))
  | storeConditional (n : Nat) (rd rs1 rs2 : Reg) :
      Shape i s { x := some rd, access := some ⟨.write, true, s.readX rs1, n⟩, reservation := true }
        (legal i s (storeConditional i n rd rs1 rs2 s))
  | amo (n : Nat) (op : BitVec (8 * n) → BitVec (8 * n) → BitVec (8 * n)) (rd rs1 rs2 : Reg) :
      Shape i s { x := some rd, access := some ⟨.readWrite, true, s.readX rs1, n⟩ }
        (legal i s (amo i n op rd rs1 rs2 s))
  | csr (rd : Reg) (csr : BitVec 12) (reads writes : Bool) (src : Word) (f : Word → Word → Word) :
      Shape i s { x := some rd, fcsr := true, counters := true } (legal i s (csrOp i rd csr reads writes src f s))
  | fpLoad (F : Fmt) (rd : Reg) (ea : Word) :
      Shape i s { f := some rd, access := some ⟨.read, false, ea, F.width / 8⟩ } (fpLoad i F rd ea s)
  | fpStore (F : Fmt) (rs2 : Reg) (ea : Word) :
      Shape i s { access := some ⟨.write, false, ea, F.width / 8⟩ } (fpStore i F rs2 ea s)
  | fpRounded (F : Fmt) (rd : Reg) (rm : BitVec 3) (r : Rounding → BitVec F.width × FFlags) :
      Shape i s { f := some rd, fcsr := true } (withRounding i rm s fun m => fpResult i F rd (r m) s)
  | fpChoose (F : Fmt) (op : BitVec F.width → BitVec F.width → BitVec F.width × FFlags) (rd rs1 rs2 : Reg) :
      Shape i s { f := some rd, fcsr := true } (fpChoose i F op rd rs1 rs2 s)
  | fpSign (F : Fmt) (sign : Bool → Bool → Bool) (rd rs1 rs2 : Reg) :
      Shape i s { f := some rd } (fpSign i F sign rd rs1 rs2 s)
  | fpMoveFromX (F : Fmt) (rd rs1 : Reg) : Shape i s { f := some rd } (fpMoveFromX i F rd rs1 s)
  | intRounded (rd : Reg) (rm : BitVec 3) (v : Rounding → Word) (fl : Rounding → FFlags) :
      Shape i s { x := some rd, fcsr := true } (withRounding i rm s fun m => intResult i rd (v m) (fl m) s)
  | fpCompare (F : Fmt) (op : BitVec F.width → BitVec F.width → Bool × FFlags) (rd rs1 rs2 : Reg) :
      Shape i s { x := some rd, fcsr := true } (fpCompare i F op rd rs1 rs2 s)
  | fpClass (F : Fmt) (rd rs1 : Reg) : Shape i s { x := some rd } (fpClass i F rd rs1 s)
  | fpMoveToX (F : Fmt) (rd rs1 : Reg) : Shape i s { x := some rd } (fpMoveToX i F rd rs1 s)

/-- The meaning of every instruction has a shape, which stays in the instruction's footprint. -/
theorem exec_shape (i : Instr) (s : State) : Shape i s (i.footprint s) (exec i s) := by
  cases i with
  | illegalAllZero | cLq | cSq | cLqsp | cSqsp => exact .illegal
  | ecall | ebreak | cEbreak => exact .raise _ _ _
  | fence | fenceTso | pause | cSlli64 | cSrli64 | cSrai64 => exact .noEffect
  | fenceI => exact .fenceI
  | lui | auipc | addi | slti | sltiu | xori | ori | andi | slli | srli | srai | add | sub | sll | slt | sltu | xor
  | srl | sra | or | and | addiw | slliw | srliw | sraiw | addw | subw | sllw | srlw | sraw | mul | mulh | mulhsu
  | mulhu | div | divu | rem | remu | mulw | divw | divuw | remw | remuw | cAddi4spn | cAddi | cAddiw | cLi
  | cAddi16sp | cLui | cSrli | cSrai | cAndi | cSub | cXor | cOr | cAnd | cSubw | cAddw | cSlli | cMv | cAdd =>
    exact .setReg _ _
  | cNop => exact .setReg_x0 _
  | beq | bne | blt | bge | bltu | bgeu | cBeqz | cBnez => exact .branch _ _ _ _
  | jal | jalr | cJal | cJalr => exact .jumpLink _ _
  | cJ | cJr => exact .jumpLink_x0 _
  | lb | lh | lw | lbu | lhu | lwu | ld | cLw | cLd | cLwsp | cLdsp => exact .loadX _ _ _ _
  | sb | sh | sw | sd | cSw | cSd | cSwsp | cSdsp => exact .storeX _ _ _
  | lrW | lrD => exact .loadReserved _ _ _
  | scW | scD => exact .storeConditional _ _ _ _
  | amoswapW | amoaddW | amoxorW | amoandW | amoorW | amominW | amomaxW | amominuW | amomaxuW | amoswapD | amoaddD
  | amoxorD | amoandD | amoorD | amominD | amomaxD | amominuD | amomaxuD => exact .amo _ _ _ _ _
  | csrrw | csrrs | csrrc | csrrwi | csrrsi | csrrci => exact .csr _ _ _ _ _ _
  | flw | cFlw | cFlwsp => exact .fpLoad .s _ _
  | fld | cFld | cFldsp => exact .fpLoad .d _ _
  | flq => exact .fpLoad .q _ _
  | fsw | cFsw | cFswsp => exact .fpStore .s _ _
  | fsd | cFsd | cFsdsp => exact .fpStore .d _ _
  | fsq => exact .fpStore .q _ _
  | fmaddS | fmsubS | fnmsubS | fnmaddS | faddS | fsubS | fmulS | fdivS | fsqrtS | fcvtSW | fcvtSWU | fcvtSL
  | fcvtSLU | fcvtSD | fcvtSQ => exact .fpRounded .s _ _ _
  | fmaddD | fmsubD | fnmsubD | fnmaddD | faddD | fsubD | fmulD | fdivD | fsqrtD | fcvtDW | fcvtDWU | fcvtDL
  | fcvtDLU | fcvtDS | fcvtDQ => exact .fpRounded .d _ _ _
  | fmaddQ | fmsubQ | fnmsubQ | fnmaddQ | faddQ | fsubQ | fmulQ | fdivQ | fsqrtQ | fcvtQW | fcvtQWU | fcvtQL
  | fcvtQLU | fcvtQS | fcvtQD => exact .fpRounded .q _ _ _
  | fminS | fmaxS | fminD | fmaxD | fminQ | fmaxQ => exact .fpChoose _ _ _ _ _
  | fsgnjS | fsgnjD | fsgnjQ => exact .fpSign _ (fun _ y => y) _ _ _
  | fsgnjnS | fsgnjnD | fsgnjnQ => exact .fpSign _ (fun _ y => !y) _ _ _
  | fsgnjxS | fsgnjxD | fsgnjxQ => exact .fpSign _ (fun x y => x != y) _ _ _
  | fmvWX | fmvDX => exact .fpMoveFromX _ _ _
  | fcvtWS | fcvtWUS | fcvtLS | fcvtLUS | fcvtWD | fcvtWUD | fcvtLD | fcvtLUD | fcvtWQ | fcvtWUQ | fcvtLQ
  | fcvtLUQ => exact .intRounded _ _ _ _
  | feqS | fltS | fleS | feqD | fltD | fleD | feqQ | fltQ | fleQ => exact .fpCompare _ _ _ _ _
  | fclassS | fclassD | fclassQ => exact .fpClass _ _ _
  | fmvXW | fmvXD => exact .fpMoveToX _ _ _

/-! ### The registers and `fcsr` that a footprint allows to change -/

/-- From `s` to `t` no register has changed but those of the footprint, and `fcsr` only as it says: not at all, by
flags ORed in, or freely in a CSR instruction (10_state.md R21, R28, R32). -/
structure Footprint.Allows (p : Footprint) (s t : State) : Prop where
  x : ∀ r, p.x ≠ some r → t.readX r = s.readX r
  f : ∀ r, p.f ≠ some r → t.readF r = s.readF r
  fcsr : p.fcsr = false → t.fcsr = s.fcsr
  accrues : p.counters = false → ∃ fl : FFlags, t.fcsr = s.fcsr ||| fl.setWidth 8

/-- Every next state of the result is allowed. -/
def Footprint.AllowsResult (p : Footprint) (s : State) (o : Result) : Prop := ∀ t, o = .next t → p.Allows s t

section Allows

variable {p : Footprint} {s t u : State}

theorem Footprint.Allows.of_eq (hx : t.x = s.x) (hf : t.f = s.f) (hc : t.fcsr = s.fcsr) : p.Allows s t where
  x r _ := State.readX_congr hx r
  f r _ := State.readF_congr hf r
  fcsr _ := hc
  accrues _ := ⟨flagNone, by simp [hc, flagNone]⟩

theorem Footprint.Allows.trans (h : p.Allows s t) (h' : p.Allows t u) : p.Allows s u where
  x r hr := (h'.x r hr).trans (h.x r hr)
  f r hr := (h'.f r hr).trans (h.f r hr)
  fcsr hc := (h'.fcsr hc).trans (h.fcsr hc)
  accrues hc := by
    obtain ⟨fl, hfl⟩ := h.accrues hc
    obtain ⟨fl', hfl'⟩ := h'.accrues hc
    exact ⟨fl ||| fl', by rw [hfl', hfl, BitVec.setWidth_or, BitVec.or_assoc]⟩

theorem allows_writeX {rd : Reg} (h : p.x = some rd) (v : Word) : p.Allows s (s.writeX rd v) where
  x r hr := by
    have hne : r ≠ rd := fun he => hr (he ▸ h)
    rw [State.readX_writeX, if_neg fun hc => hne hc.1]
  f r _ := State.readF_congr (s.writeX_f rd v) r
  fcsr _ := s.writeX_fcsr rd v
  accrues _ := ⟨flagNone, by simp [flagNone]⟩

theorem allows_writeX_x0 (v : Word) : p.Allows s (s.writeX 0#5 v) := .of_eq rfl rfl rfl

theorem allows_writeFp {rd : Reg} (h : p.f = some rd) (F : Fmt) (v : BitVec F.width) :
    p.Allows s (s.writeFp F rd v) where
  x r _ := rfl
  f r hr := by
    have hne : r ≠ rd := fun he => hr (he ▸ h)
    rw [State.writeFp, State.readF_writeF, if_neg hne]
  fcsr _ := rfl
  accrues _ := ⟨flagNone, by simp [flagNone]⟩

theorem allows_accrue (h : p.fcsr = true) (fl : FFlags) : p.Allows s (s.accrue fl) where
  x r _ := rfl
  f r _ := rfl
  fcsr hc := absurd hc (by simp [h])
  accrues _ := ⟨fl, by rw [State.accrue_eq]; rfl⟩

theorem allows_accrue_none : p.Allows s (s.accrue flagNone) := by
  rw [State.accrue_eq, State.withFlags_none]; exact .of_eq rfl rfl rfl

theorem allows_memRead (ea : Word) (n : Nat) (w : Bool) : p.Allows s (s.memRead ea n w).2 := by
  obtain ⟨_, h⟩ := s.memRead_eq ea n w
  rw [h]; exact .of_eq rfl rfl rfl

theorem allows_memWrite (ea : Word) (n : Nat) (v : BitVec (8 * n)) (w : Bool) : p.Allows s (s.memWrite ea n v w) := by
  obtain ⟨_, _, _, _, h⟩ := s.memWrite_eq ea n v w
  rw [h]; exact .of_eq rfl rfl rfl

theorem allows_scMayFail (ea : Word) (n : Nat) : p.Allows s (s.scMayFail ea n).2 := by
  rw [State.scMayFail_snd]; exact .of_eq rfl rfl rfl

theorem allows_csrRead (r : Csr) : p.Allows s (s.csrRead r).2 := by
  rw [State.csrRead_snd]; exact .of_eq rfl rfl rfl

/-- What a CSR instruction writes to its CSR, if it writes. -/
theorem allows_csrWrite (hf : p.fcsr = true) (hc : p.counters = true) (writes : Bool) (r : Csr) (v : Word) :
    p.Allows s (if writes then s.csrWrite r v else s) := by
  cases writes with
  | false => exact .of_eq rfl rfl rfl
  | true =>
    rw [if_pos rfl, State.csrWrite_eq]
    exact ⟨fun _ _ => rfl, fun _ _ => rfl, fun h => absurd h (by simp [hf]), fun h => absurd h (by simp [hc])⟩

/-! ### The results of the shared operations -/

variable {i : Instr}

theorem allows_next (h : p.Allows s t) : p.AllowsResult s (.next t) := by
  rintro _ ⟨⟩; exact h

theorem allows_raise (cause : Cause) (tval : Word) (len : Nat) : p.AllowsResult s (raise cause tval len s) :=
  allows_next (.of_eq rfl rfl rfl)

theorem allows_retire (h : p.Allows s t) : p.AllowsResult s (retire i t) :=
  allows_next (h.trans (.of_eq rfl rfl rfl))

theorem allows_legal {o : Result} (h : p.AllowsResult s o) : p.AllowsResult s (legal i s o) := by
  cases hw : i.wellFormed s.cfg with
  | true => rwa [legal_of_wf i s hw]
  | false => rw [legal_of_not_wf i s hw]; exact allows_raise _ _ _

theorem allows_withRounding {rm : BitVec 3} {body : Rounding → Result} (h : ∀ m, p.AllowsResult s (body m)) :
    p.AllowsResult s (withRounding i rm s body) := by
  cases hm : s.rounding rm with
  | none => rw [withRounding_of_none i s hm]; exact allows_raise _ _ _
  | some m =>
    unfold withRounding
    rw [hm]
    exact allows_legal (h m)

theorem allows_jump {target : Word} (h : p.Allows s t) : p.AllowsResult s (jump i target s t) := by
  cases ha : s.cfg.aligned target with
  | true => rw [jump_of_aligned i ha]; exact allows_next (h.trans (.of_eq rfl rfl rfl))
  | false => rw [jump_of_misaligned i ha]; exact allows_raise _ _ _

theorem allows_branch (test : (w : Nat) → BitVec w → BitVec w → Bool) (rs1 rs2 : Reg) (target : Word) :
    p.AllowsResult s (branch i test rs1 rs2 target s) := by
  have same : p.Allows s s := .of_eq rfl rfl rfl
  refine allows_legal ?_
  split
  · exact allows_jump same
  · exact allows_retire same

theorem allows_load {n : Nat} {ea : Word} {put : BitVec (8 * n) → State → State}
    (h : ∀ v u, p.Allows u (put v u)) : p.AllowsResult s (load i n ea put s) := by
  cases hf : dataFault s.cfg .read ea n with
  | some cause => rw [load_of_fault i s hf]; exact allows_raise _ _ _
  | none => rw [load_of_ok i s hf]; exact allows_retire ((allows_memRead _ _ _).trans (h _ _))

theorem allows_store (n : Nat) (ea : Word) (v : BitVec (8 * n)) : p.AllowsResult s (store i n ea v s) := by
  cases hf : dataFault s.cfg .write ea n with
  | some cause => rw [store_of_fault i s hf]; exact allows_raise _ _ _
  | none => rw [store_of_ok i s hf]; exact allows_next ((allows_memWrite _ _ _ _).trans (.of_eq rfl rfl rfl))

theorem allows_loadReserved {rd : Reg} (hx : p.x = some rd) (n : Nat) (rs1 : Reg) :
    p.AllowsResult s (loadReserved i n rd rs1 s) := by
  unfold loadReserved
  simp only
  split
  · exact allows_raise _ _ _
  · refine allows_retire (.trans (.trans (allows_memRead (s.readX rs1) n false) ?_) (allows_writeX hx _))
    exact .of_eq rfl rfl rfl

theorem allows_storeConditional {rd : Reg} (hx : p.x = some rd) (n : Nat) (rs1 rs2 : Reg) :
    p.AllowsResult s (storeConditional i n rd rs1 rs2 s) := by
  unfold storeConditional
  simp only
  split
  · exact allows_raise _ _ _
  · refine allows_retire (.trans (.trans (allows_scMayFail (s.readX rs1) n) ?_) (allows_writeX hx _))
    split
    · exact (allows_memWrite _ _ _ _).trans (.of_eq rfl rfl rfl)
    · exact .of_eq rfl rfl rfl

theorem allows_amo {rd : Reg} (hx : p.x = some rd) (n : Nat) (op : BitVec (8 * n) → BitVec (8 * n) → BitVec (8 * n))
    (rs1 rs2 : Reg) : p.AllowsResult s (amo i n op rd rs1 rs2 s) := by
  unfold amo
  simp only
  split
  · exact allows_raise _ _ _
  · exact allows_retire (((allows_memRead _ _ _).trans (allows_memWrite _ _ _ _)).trans (allows_writeX hx _))

theorem allows_csrOp {rd : Reg} (hx : p.x = some rd) (hf : p.fcsr = true) (hc : p.counters = true) (csr : BitVec 12)
    (reads writes : Bool) (src : Word) (f : Word → Word → Word) :
    p.AllowsResult s (csrOp i rd csr reads writes src f s) := by
  unfold csrOp
  split
  · exact allows_raise _ _ _
  · rename_i r _
    split
    · exact allows_raise _ _ _
    · refine allows_retire ?_
      cases reads with
      | true => exact ((allows_csrRead r).trans (allows_csrWrite hf hc writes r _)).trans (allows_writeX hx _)
      | false => exact allows_csrWrite hf hc writes r _

theorem allows_fpResult {rd : Reg} (hf : p.f = some rd) (hc : p.fcsr = true) (F : Fmt)
    (r : BitVec F.width × FFlags) : p.AllowsResult s (fpResult i F rd r s) :=
  allows_retire ((allows_writeFp hf F r.1).trans (allows_accrue hc r.2))

theorem allows_intResult {rd : Reg} (hx : p.x = some rd) (hc : p.fcsr = true) (v : Word) (fl : FFlags) :
    p.AllowsResult s (intResult i rd v fl s) :=
  allows_retire ((allows_writeX hx v).trans (allows_accrue hc fl))

end Allows

/-- Each shape changes only what its footprint allows, whether it completes or traps. -/
theorem Shape.allows {i : Instr} {s : State} {p : Footprint} {o : Result} (h : Shape i s p o) :
    p.AllowsResult s o := by
  cases h with
  | illegal => exact allows_raise _ _ _
  | raise cause tval len => exact allows_legal (allows_raise _ _ _)
  | noEffect | fenceI => exact allows_legal (allows_retire (.of_eq rfl rfl rfl))
  | setReg rd v => exact allows_legal (allows_retire (allows_writeX rfl v))
  | setReg_x0 v => exact allows_legal (allows_retire (allows_writeX_x0 v))
  | branch test rs1 rs2 target => exact allows_branch test rs1 rs2 target
  | jumpLink rd target => exact allows_legal (allows_jump (allows_writeX rfl _))
  | jumpLink_x0 target => exact allows_legal (allows_jump (allows_writeX_x0 _))
  | loadX n sgn rd ea => exact allows_legal (allows_load fun v u => allows_writeX rfl _)
  | storeX n rs2 ea | fpStore F rs2 ea => exact allows_legal (allows_store _ _ _)
  | loadReserved n rd rs1 => exact allows_legal (allows_loadReserved rfl n rs1)
  | storeConditional n rd rs1 rs2 => exact allows_legal (allows_storeConditional rfl n rs1 rs2)
  | amo n op rd rs1 rs2 => exact allows_legal (allows_amo rfl n op rs1 rs2)
  | csr rd csr reads writes src f => exact allows_legal (allows_csrOp rfl rfl rfl csr reads writes src f)
  | fpLoad F rd ea => exact allows_legal (allows_load fun v u => allows_writeFp rfl F _)
  | fpRounded F rd rm r => exact allows_withRounding fun m => allows_fpResult rfl rfl F (r m)
  | fpChoose F op rd rs1 rs2 => exact allows_legal (allows_fpResult rfl rfl F _)
  | fpSign F sign rd rs1 rs2 => exact allows_legal (allows_retire ((allows_writeFp rfl F _).trans allows_accrue_none))
  | fpMoveFromX F rd rs1 => exact allows_legal (allows_retire (allows_writeFp rfl F _))
  | intRounded rd rm v fl => exact allows_withRounding fun m => allows_intResult rfl rfl (v m) (fl m)
  | fpCompare F op rd rs1 rs2 => exact allows_legal (allows_intResult rfl rfl _ _)
  | fpClass F rd rs1 => exact allows_legal (allows_retire ((allows_writeX rfl _).trans allows_accrue_none))
  | fpMoveToX F rd rs1 => exact allows_legal (allows_retire (allows_writeX rfl _))

/-- Every instruction changes, of the registers and `fcsr`, only what its footprint allows. -/
theorem exec_allows {i : Instr} {s t : State} (h : exec i s = .next t) : (i.footprint s).Allows s t :=
  (exec_shape i s).allows t h

/-! ### The statements -/

theorem State.frm_of_accrued {s t : State} {fl : FFlags} (h : t.fcsr = s.fcsr ||| fl.setWidth 8) : t.frm = s.frm := by
  have ht : t.fcsr = (s.accrue fl).fcsr := by rw [h, State.accrue_eq]; rfl
  unfold State.frm
  rw [ht]
  exact BitVec.extractLsb'_append_eq_left

theorem State.fflags_of_accrued {s t : State} {fl : FFlags} (h : t.fcsr = s.fcsr ||| fl.setWidth 8) :
    t.fflags = s.fflags ||| fl := by
  have ht : t.fcsr = (s.accrue fl).fcsr := by rw [h, State.accrue_eq]; rfl
  unfold State.fflags
  rw [ht]
  exact BitVec.extractLsb'_append_eq_right

/-- Settles O54: what is no CSR instruction at most ORs flags into `fcsr`. -/
theorem accruedFlagsAreSticky : Obligations.AccruedFlagsAreSticky := by
  intro i s t hcsr h
  obtain ⟨fl, hfl⟩ := (exec_allows h).accrues hcsr
  refine ⟨?_, State.frm_of_accrued hfl⟩
  rw [State.fflags_of_accrued hfl]
  ext k
  simp +contextual

/-- Settles O59: the footprint names the destinations; a trap changes no register either, so that the statuses do not
matter. -/
theorem registerFrame : Obligations.RegisterFrame := by
  intro i s t _ h _
  have ha := exec_allows h
  exact ⟨ha.x, t.readX_zero, ha.f, ha.fcsr⟩

end Sys2Proof.Machine
end

section
/-! PROOFS. The invariant: what each operation on the state keeps of it, that every instruction keeps it, and that every
step does (20_memory.md R60; 10_state.md R20, R24, R26, R30). -/

namespace Sys2Proof

/-! ### Addresses that fit and are aligned -/

theorem Config.fitsX_addX (c : Config) (a b : Word) : c.fitsX (c.addX a b) = true := c.fitsX_truncate _

/-- IALIGN/8 divides the size of the address space. -/
theorem Config.ialignBytes_dvd_space (c : Config) : c.ialignBytes ∣ 2 ^ c.xlen := by
  have hi : c.ialignBytes ∣ 2 ^ 2 := by unfold Config.ialignBytes; split <;> decide
  refine hi.trans (Nat.pow_dvd_pow 2 ?_)
  rcases c.xlen_cases with ⟨-, h⟩ | ⟨-, h⟩ <;> rw [h] <;> decide

theorem Config.aligned_addX {c : Config} {a b : Word} (ha : c.aligned a = true) (hb : c.aligned b = true) :
    c.aligned (c.addX a b) = true := by
  simp only [Config.aligned, beq_iff_eq] at *
  rw [Config.addX_toNat, Nat.mod_mod_of_dvd _ c.ialignBytes_dvd_space, Nat.add_mod, ha, hb, Nat.zero_mod]

theorem Config.fitsX_iff (c : Config) (v : Word) : c.fitsX v = true ↔ v.toNat < 2 ^ c.xlen := by
  rw [Config.fitsX, beq_iff_eq, ← BitVec.toNat_inj, c.truncate_toNat]
  exact ⟨fun h => h ▸ Nat.mod_lt _ (Nat.two_pow_pos _), Nat.mod_eq_of_lt⟩

/-- Clearing bit 0 of an address, as JALR does, sets no bit above XLEN. -/
theorem Config.fitsX_clearBit0 {c : Config} {v : Word} (h : c.fitsX v = true) :
    c.fitsX (Machine.clearBit0 v) = true := by
  rw [Config.fitsX_iff] at *
  refine lt_of_le_of_lt ?_ h
  rw [Machine.clearBit0, BitVec.toNat_and]
  exact Nat.and_le_left

theorem Config.fitsX_zero (c : Config) : c.fitsX 0#64 = true := by
  rw [Config.fitsX_iff]; exact Nat.two_pow_pos _

/-- A 2-byte instruction is present only with C. -/
theorem Instr.ilen_of_present {c : Config} {i : Instr} (h : i.present c = true) :
    i.ilen = 4 ∨ (i.ilen = 2 ∧ c.ext.c = true) := by
  cases i with
  | illegalAllZero | cAddi4spn | cLw | cSw | cNop | cAddi | cLi | cAddi16sp | cLui | cSrli | cSrai | cAndi | cSub
  | cXor | cOr | cAnd | cJ | cBeqz | cBnez | cSlli | cLwsp | cJr | cMv | cEbreak | cJalr | cAdd | cSwsp | cSlli64
  | cSrli64 | cSrai64 => exact .inr ⟨rfl, h⟩
  | cFld | cFsd | cFldsp | cFsdsp => exact .inr ⟨rfl, (Bool.and_eq_true_iff.1 h).1⟩
  | cFlw | cFsw | cFlwsp | cFswsp => exact .inr ⟨rfl, (Bool.and_eq_true_iff.1 (Bool.and_eq_true_iff.1 h).1).2⟩
  | cLd | cSd | cAddiw | cSubw | cAddw | cLdsp | cSdsp | cJal => exact .inr ⟨rfl, (Bool.and_eq_true_iff.1 h).2⟩
  | cLq | cSq | cLqsp | cSqsp => exact absurd h Bool.false_ne_true
  | _ => exact .inl rfl

theorem Instr.present_of_wellFormed {c : Config} {i : Instr} (h : i.wellFormed c = true) : i.present c = true :=
  (Bool.and_eq_true_iff.1 (Bool.and_eq_true_iff.1 h).1).1

/-- The length of an instruction of the configuration keeps `pc` aligned (10_state.md R26). -/
theorem Config.aligned_ilen {c : Config} {i : Instr} (h : i.wellFormed c = true) :
    c.aligned (BitVec.ofNat 64 i.ilen) = true := by
  rcases Instr.ilen_of_present (Instr.present_of_wellFormed h) with hi | ⟨hi, hc⟩ <;>
    rw [hi, Config.aligned, Config.ialignBytes]
  · split <;> rfl
  · rw [hc]; rfl

/-! ### Patterns of FLEN bits -/

theorem Config.flen_le (c : Config) : c.flen ≤ 128 := by
  unfold Config.flen; split_ifs <;> decide

theorem Config.fitsF_iff (c : Config) (v : FWord) : c.fitsF v = true ↔ v.toNat < 2 ^ c.flen := by
  have hp := Nat.pow_le_pow_right (n := 2) (by decide) c.flen_le
  rw [Config.fitsF, beq_iff_eq, ← BitVec.toNat_inj, BitVec.toNat_setWidth, BitVec.toNat_setWidth]
  rw [Nat.mod_eq_of_lt (b := 2 ^ 128) (lt_of_lt_of_le (Nat.mod_lt _ (Nat.two_pow_pos _)) hp)]
  exact ⟨fun h => h ▸ Nat.mod_lt _ (Nat.two_pow_pos _), Nat.mod_eq_of_lt⟩

end Sys2Proof

namespace Sys2Proof.Machine

/-! ### The invariant, clause by clause -/

/-- What `State.inv` says, as propositions with names. -/
structure State.Inv (s : State) : Prop where
  canonical : Memory.wf s.memory = true
  inSpace : ∀ c ∈ s.memory, c.1 < 2 ^ s.cfg.xlen
  x : ∀ v ∈ s.x, s.cfg.fitsX v = true
  f : ∀ v ∈ s.f, s.cfg.fitsF v = true
  pc : s.cfg.fitsX s.pc = true
  aligned : s.cfg.aligned s.pc = true

theorem State.inv_iff (s : State) : s.inv = true ↔ s.Inv := by
  simp only [State.inv, Bool.and_eq_true, List.all_eq_true, decide_eq_true_eq, Vector.mem_toList_iff]
  exact ⟨fun ⟨⟨⟨⟨⟨h1, h2⟩, h3⟩, h4⟩, h5⟩, h6⟩ => ⟨h1, h2, h3, h4, h5, h6⟩,
    fun ⟨h1, h2, h3, h4, h5, h6⟩ => ⟨⟨⟨⟨⟨h1, h2⟩, h3⟩, h4⟩, h5⟩, h6⟩⟩

/-- Settles O2, clause by clause: memory lists nothing and every register holds zero. -/
theorem resetSatisfiesInvariant : Obligations.ResetSatisfiesInvariant := by
  rw [Obligations.ResetSatisfiesInvariant, State.inv_iff]
  exact {
    canonical := rfl
    inSpace := fun c hc => absurd hc List.not_mem_nil
    x := fun v hv => by rw [(Vector.mem_replicate.1 hv).2]; decide
    f := fun v hv => by rw [(Vector.mem_replicate.1 hv).2]; decide
    pc := by decide
    aligned := by decide }

/-! ### Boxed results -/

theorem Fmt.width_s_le (c : Config) : Fmt.s.width ≤ c.flen := by
  unfold Config.flen; split_ifs <;> decide

theorem Fmt.width_d_le {c : Config} (h : c.ext.d = true) : Fmt.d.width ≤ c.flen := by
  unfold Config.flen; rw [h]; split <;> decide

theorem Fmt.width_q_le {c : Config} (h : c.ext.q = true) : Fmt.q.width ≤ c.flen := by
  unfold Config.flen; rw [h]; rfl

/-- Boxing fills the register up to FLEN and no further (47_d.md R451). -/
theorem fitsF_box {c : Config} {F : Fmt} (h : F.width ≤ c.flen) (v : BitVec F.width) :
    c.fitsF (box c F v) = true := by
  have hf := c.flen_le
  have hw : 2 ^ F.width ≤ 2 ^ c.flen := Nat.pow_le_pow_right (by decide) h
  rw [Config.fitsF_iff, box, BitVec.toNat_or]
  refine Nat.or_lt_two_pow ?_ ?_
  · rw [BitVec.toNat_shiftLeft, BitVec.toNat_setWidth, BitVec.toNat_allOnes, Nat.shiftLeft_eq]
    refine lt_of_le_of_lt (Nat.mod_le _ _) (lt_of_le_of_lt (Nat.mul_le_mul_right _ (Nat.mod_le _ _)) ?_)
    rw [Nat.sub_mul, ← pow_add, Nat.sub_add_cancel h, Nat.one_mul]
    exact Nat.sub_lt (Nat.two_pow_pos _) (Nat.two_pow_pos _)
  · rw [BitVec.toNat_setWidth]
    exact lt_of_le_of_lt (Nat.mod_le _ _) (lt_of_lt_of_le v.isLt hw)

/-! ### What each update of the state keeps -/

section Updates

variable {s t : State}

theorem State.Inv.congr (h : s.Inv) (hcfg : t.cfg = s.cfg) (hm : t.memory = s.memory) (hx : t.x = s.x)
    (hf : t.f = s.f) (hpc : t.pc = s.pc) : t.Inv where
  canonical := hm ▸ h.canonical
  inSpace := by rw [hm, hcfg]; exact h.inSpace
  x := by rw [hx, hcfg]; exact h.x
  f := by rw [hf, hcfg]; exact h.f
  pc := by rw [hpc, hcfg]; exact h.pc
  aligned := by rw [hpc, hcfg]; exact h.aligned

theorem State.Inv.fits_readX (h : s.Inv) (r : Reg) : s.cfg.fitsX (s.readX r) = true := by
  unfold State.readX
  split
  · exact s.cfg.fitsX_zero
  · exact h.x _ (Vector.getElem_mem _)

theorem State.Inv.writeX (h : s.Inv) (r : Reg) (v : Word) : (s.writeX r v).Inv := by
  by_cases hr : r = 0#5
  · rwa [State.writeX, if_pos hr]
  · rw [State.writeX, if_neg hr]
    refine { h with x := fun w hw => ?_ }
    rcases Vector.mem_or_eq_of_mem_set (hi := r.isLt) hw with hw | rfl
    · exact h.x w hw
    · exact s.cfg.fitsX_truncate v

theorem State.Inv.writeFp (h : s.Inv) {F : Fmt} (hF : F.width ≤ s.cfg.flen) (r : Reg) (v : BitVec F.width) :
    (s.writeFp F r v).Inv := by
  refine { h with f := fun w hw => ?_ }
  rcases Vector.mem_or_eq_of_mem_set (hi := r.isLt) hw with hw | rfl
  · exact h.f w hw
  · exact fitsF_box hF v

theorem State.Inv.accrue (h : s.Inv) (fl : FFlags) : (s.accrue fl).Inv := h.congr rfl rfl rfl rfl rfl

/-- Control goes to an address of XLEN bits that is aligned. -/
theorem State.Inv.withPc (h : s.Inv) {target : Word} (hf : s.cfg.fitsX target = true)
    (ha : s.cfg.aligned target = true) : { s with pc := target }.Inv :=
  { h with pc := hf, aligned := ha }

theorem State.Inv.retireTo (h : s.Inv) {target : Word} (hf : s.cfg.fitsX target = true)
    (ha : s.cfg.aligned target = true) : (s.retireTo target).Inv :=
  (h.withPc hf ha).congr rfl rfl rfl rfl rfl

theorem State.Inv.trap (h : s.Inv) (cause : Cause) (tval : Word) (len : Nat) : (s.trap cause tval len).Inv :=
  h.congr rfl rfl rfl rfl rfl

theorem State.Inv.memRead (h : s.Inv) (ea : Word) (n : Nat) (w : Bool) : (s.memRead ea n w).2.Inv := by
  obtain ⟨_, he⟩ := s.memRead_eq ea n w
  rw [he]; exact h.congr rfl rfl rfl rfl rfl

/-- A store lists only addresses of the address space (20_memory.md R60). -/
theorem State.Inv.memWrite (h : s.Inv) (ea : Word) (n : Nat) (v : BitVec (8 * n)) (w : Bool) :
    (s.memWrite ea n v w).Inv := by
  have hwf := s.memWrite_wf ea n v w h.canonical
  have hin : ∀ c ∈ (s.memWrite ea n v w).memory, c.1 < 2 ^ s.cfg.xlen := fun c hc =>
    (s.mem_memWrite ea n v w hc).elim byteAddrs_lt (h.inSpace c)
  obtain ⟨_, _, _, _, he⟩ := s.memWrite_eq ea n v w
  rw [he] at hwf hin ⊢
  exact { h with canonical := hwf, inSpace := hin }

theorem State.Inv.scMayFail (h : s.Inv) (ea : Word) (n : Nat) : (s.scMayFail ea n).2.Inv := by
  rw [State.scMayFail_snd]; exact h.congr rfl rfl rfl rfl rfl

theorem State.Inv.csrRead (h : s.Inv) (r : Csr) : (s.csrRead r).2.Inv := by
  rw [State.csrRead_snd]; exact h.congr rfl rfl rfl rfl rfl

theorem State.Inv.csrWrite (h : s.Inv) (r : Csr) (v : Word) : (s.csrWrite r v).Inv := by
  rw [State.csrWrite_eq]; exact h.congr rfl rfl rfl rfl rfl

/-- A service narrows registers and addresses to their widths. -/
theorem State.Inv.serve (h : s.Inv) (e : ServiceEffect) : (s.serve e).Inv := by
  rw [State.serve_eq]
  refine { h with canonical := s.writeCells_wf _ h.canonical, inSpace := fun c hc => ?_, x := ?_, f := ?_ }
  · rcases s.mem_writeCells _ hc with hc | hc
    · obtain ⟨w, -, rfl⟩ := List.mem_map.1 hc
      exact Nat.mod_lt _ (Nat.two_pow_pos _)
    · exact h.inSpace c hc
  · intro v hv
    obtain ⟨w, -, rfl⟩ := Vector.mem_map.1 hv
    exact s.cfg.fitsX_truncate w
  · intro v hv
    obtain ⟨w, -, rfl⟩ := Vector.mem_map.1 hv
    have hp := Nat.pow_le_pow_right (n := 2) (by decide) s.cfg.flen_le
    have hlt := Nat.mod_lt w.toNat (Nat.two_pow_pos s.cfg.flen)
    rw [Config.fitsF_iff, BitVec.toNat_setWidth, BitVec.toNat_setWidth, Nat.mod_eq_of_lt (by omega)]
    exact hlt

end Updates

/-! ### What the shapes of the instructions keep -/

/-- Every next state of the result meets the invariant. -/
def KeepsInv (o : Result) : Prop := ∀ t, o = .next t → t.Inv

section Shapes

variable {i : Instr} {s t : State}

theorem keepsInv_next (h : t.Inv) : KeepsInv (.next t) := by
  rintro _ ⟨⟩; exact h

theorem keepsInv_raise (h : s.Inv) (cause : Cause) (tval : Word) (len : Nat) : KeepsInv (raise cause tval len s) :=
  keepsInv_next (h.trap _ _ _)

theorem keepsInv_illegal (h : s.Inv) : KeepsInv (illegal i s) := keepsInv_raise h _ _ _

theorem keepsInv_legal (h : s.Inv) {body : Result} (hb : i.wellFormed s.cfg = true → KeepsInv body) :
    KeepsInv (legal i s body) := by
  unfold legal
  split
  · exact hb ‹_›
  · exact keepsInv_illegal h

theorem keepsInv_withRounding (h : s.Inv) (rm : BitVec 3) {body : Rounding → Result}
    (hb : i.wellFormed s.cfg = true → ∀ m, KeepsInv (body m)) : KeepsInv (withRounding i rm s body) := by
  refine keepsInv_legal h fun hw => ?_
  split
  · exact keepsInv_illegal h
  · exact hb hw _

/-- An instruction of the configuration retires to an aligned `pc`. -/
theorem keepsInv_retire (hw : i.wellFormed s.cfg = true) (h : t.Inv) (hc : t.cfg = s.cfg := by simp) :
    KeepsInv (retire i t) :=
  keepsInv_next (h.retireTo (t.cfg.fitsX_addX _ _)
    (Config.aligned_addX h.aligned (Config.aligned_ilen (hc ▸ hw))))

theorem keepsInv_jump (h : s.Inv) {target : Word} (hf : s.cfg.fitsX target = true) {linked : State}
    (hl : linked.Inv) (hc : linked.cfg = s.cfg := by simp) : KeepsInv (jump i target s linked) := by
  unfold jump
  split
  · exact keepsInv_next (hl.retireTo (hc ▸ hf) (hc ▸ ‹_›))
  · exact keepsInv_raise h _ _ _

theorem keepsInv_setReg (h : s.Inv) (rd : Reg) (v : Word) : KeepsInv (setReg i rd v s) :=
  keepsInv_legal h fun hw => keepsInv_retire hw (h.writeX rd v)

theorem keepsInv_noEffect (h : s.Inv) : KeepsInv (noEffect i s) :=
  keepsInv_legal h fun hw => keepsInv_retire hw h

theorem keepsInv_branch (h : s.Inv) (test : (w : Nat) → BitVec w → BitVec w → Bool) (rs1 rs2 : Reg) {target : Word}
    (hf : s.cfg.fitsX target = true) : KeepsInv (branch i test rs1 rs2 target s) := by
  refine keepsInv_legal h fun hw => ?_
  split
  · exact keepsInv_jump h hf h
  · exact keepsInv_retire hw h

theorem keepsInv_jumpLink (h : s.Inv) (rd : Reg) {target : Word} (hf : s.cfg.fitsX target = true) :
    KeepsInv (jumpLink i rd target s) :=
  keepsInv_legal h fun _ => keepsInv_jump h hf (h.writeX rd _)

theorem keepsInv_load (h : s.Inv) (hw : i.wellFormed s.cfg = true) (n : Nat) (ea : Word)
    {put : BitVec (8 * n) → State → State}
    (hput : ∀ v t, t.Inv → t.cfg = s.cfg → (put v t).Inv ∧ (put v t).cfg = s.cfg) :
    KeepsInv (load i n ea put s) := by
  unfold load
  split
  · exact keepsInv_raise h _ _ _
  · obtain ⟨hi, hc⟩ := hput _ _ (h.memRead ea n false) (s.memRead_cfg ea n false)
    exact keepsInv_retire hw hi hc

theorem keepsInv_store (h : s.Inv) (hw : i.wellFormed s.cfg = true) (n : Nat) (ea : Word) (v : BitVec (8 * n)) :
    KeepsInv (store i n ea v s) := by
  unfold store
  split
  · exact keepsInv_raise h _ _ _
  · exact keepsInv_retire hw (h.memWrite ea n v false)

theorem keepsInv_loadX (h : s.Inv) (n : Nat) (sgn : Bool) (rd : Reg) (ea : Word) :
    KeepsInv (loadX i n sgn rd ea s) :=
  keepsInv_legal h fun hw => keepsInv_load h hw n ea fun _ t ht hc => ⟨ht.writeX rd _, by simp [hc]⟩

theorem keepsInv_storeX (h : s.Inv) (n : Nat) (rs2 : Reg) (ea : Word) : KeepsInv (storeX i n rs2 ea s) :=
  keepsInv_legal h fun hw => keepsInv_store h hw n ea _

theorem keepsInv_loadReserved (h : s.Inv) (n : Nat) (rd rs1 : Reg) :
    KeepsInv (legal i s (loadReserved i n rd rs1 s)) := by
  refine keepsInv_legal h fun hw => ?_
  unfold loadReserved
  simp only
  split
  · exact keepsInv_raise h _ _ _
  · have hr := h.memRead (s.readX rs1) n false
    refine keepsInv_retire hw (.writeX ?_ rd _)
    exact hr.congr rfl rfl rfl rfl rfl

theorem keepsInv_storeConditional (h : s.Inv) (n : Nat) (rd rs1 rs2 : Reg) :
    KeepsInv (legal i s (storeConditional i n rd rs1 rs2 s)) := by
  refine keepsInv_legal h fun hw => ?_
  have hm := h.scMayFail (s.readX rs1) n
  have hc : (s.scMayFail (s.readX rs1) n).2.cfg = s.cfg := by rw [State.scMayFail_snd]
  cases hf : atomicFault s.cfg .write (s.readX rs1) n with
  | some cause => rw [storeConditional_of_fault i s hf]; exact keepsInv_raise h _ _ _
  | none =>
    simp only [storeConditional, hf]
    split <;> refine keepsInv_retire hw (.writeX ?_ rd _) (by simp [hc])
    · exact (hm.memWrite _ n _ false).congr rfl rfl rfl rfl rfl
    · exact hm.congr rfl rfl rfl rfl rfl

theorem keepsInv_amo (h : s.Inv) (n : Nat) (op : BitVec (8 * n) → BitVec (8 * n) → BitVec (8 * n))
    (rd rs1 rs2 : Reg) : KeepsInv (legal i s (amo i n op rd rs1 rs2 s)) := by
  refine keepsInv_legal h fun hw => ?_
  unfold amo
  simp only
  split
  · exact keepsInv_raise h _ _ _
  · exact keepsInv_retire hw (((h.memRead _ n _).memWrite _ n _ _).writeX rd _)

theorem keepsInv_csrOp (h : s.Inv) (rd : Reg) (csr : BitVec 12) (reads writes : Bool) (src : Word)
    (f : Word → Word → Word) : KeepsInv (legal i s (csrOp i rd csr reads writes src f s)) := by
  refine keepsInv_legal h fun hw => ?_
  cases ha : csrAt s.cfg csr with
  | none => rw [csrOp_of_absent i s ha]; exact keepsInv_raise h _ _ _
  | some r =>
    have hread : (s.csrRead r).2.cfg = s.cfg := by rw [State.csrRead_snd]
    have hwrite : ∀ (u : State) (v : Word), (u.csrWrite r v).cfg = u.cfg := fun u v => by rw [State.csrWrite_eq]
    simp only [csrOp, ha]
    split
    · exact keepsInv_illegal h
    · cases reads <;> cases writes
      · exact keepsInv_retire hw h
      · exact keepsInv_retire hw (h.csrWrite r _) (hwrite _ _)
      · exact keepsInv_retire hw ((h.csrRead r).writeX rd _) (by simp [hread])
      · exact keepsInv_retire hw (((h.csrRead r).csrWrite r _).writeX rd _) (by simp [hread, hwrite])

theorem keepsInv_fpStore (h : s.Inv) (F : Fmt) (rs2 : Reg) (ea : Word) : KeepsInv (fpStore i F rs2 ea s) :=
  keepsInv_legal h fun hw => keepsInv_store h hw _ ea _

theorem keepsInv_intResult (h : s.Inv) (hw : i.wellFormed s.cfg = true) (rd : Reg) (v : Word) (fl : FFlags) :
    KeepsInv (intResult i rd v fl s) :=
  keepsInv_retire hw ((h.writeX rd v).accrue fl)

/-! A result in a format is no wider than FLEN where the instruction is one of the configuration. -/

section Formats

variable {F : Fmt} (h : s.Inv) (hF : i.wellFormed s.cfg = true → F.width ≤ s.cfg.flen)

include h hF

theorem keepsInv_writeFp (rd : Reg) (v : BitVec F.width) : KeepsInv (legal i s (retire i (s.writeFp F rd v))) :=
  keepsInv_legal h fun hw => keepsInv_retire hw (h.writeFp (hF hw) rd v)

theorem keepsInv_fpResult (hw : i.wellFormed s.cfg = true) (rd : Reg) (r : BitVec F.width × FFlags) :
    KeepsInv (fpResult i F rd r s) :=
  keepsInv_retire hw ((h.writeFp (hF hw) rd r.1).accrue r.2)

theorem keepsInv_fpRounded (rm : BitVec 3) (rd : Reg) (r : Rounding → BitVec F.width × FFlags) :
    KeepsInv (withRounding i rm s fun m => fpResult i F rd (r m) s) :=
  keepsInv_withRounding h rm fun hw m => keepsInv_fpResult h hF hw rd (r m)

theorem keepsInv_fpExact (rd : Reg) (r : BitVec F.width × FFlags) : KeepsInv (legal i s (fpResult i F rd r s)) :=
  keepsInv_legal h fun hw => keepsInv_fpResult h hF hw rd r

theorem keepsInv_fpLoad (rd : Reg) (ea : Word) : KeepsInv (fpLoad i F rd ea s) :=
  keepsInv_legal h fun hw => keepsInv_load h hw _ ea fun _ _ ht hc => ⟨ht.writeFp (hc ▸ hF hw) rd _, by simp [hc]⟩

end Formats

end Shapes

/-! ### Every instruction, and every step -/

/-- The instructions of D need FLEN to be at least 64. -/
theorem width_d_of_and {c : Config} {b : Bool} (h : (b && c.ext.d) = true) : Fmt.d.width ≤ c.flen :=
  Fmt.width_d_le (Bool.and_eq_true_iff.1 h).2

theorem width_q_of_and {c : Config} {b : Bool} (h : (b && c.ext.q) = true) : Fmt.q.width ≤ c.flen :=
  Fmt.width_q_le (Bool.and_eq_true_iff.1 h).2

/-- Every instruction keeps the invariant, whether it completes or traps. Beside its shape two things matter: that the
target of a jump has XLEN bits, and that the format of a result is within FLEN. -/
theorem exec_keepsInv (i : Instr) {s : State} (h : s.Inv) : KeepsInv (exec i s) := by
  have hs : i.wellFormed s.cfg = true → Fmt.s.width ≤ s.cfg.flen := fun _ => Fmt.width_s_le _
  have target := fun (n : Nat) (off : BitVec n) => s.cfg.fitsX_addX s.pc (s.cfg.offset off)
  have present := fun {j : Instr} (hw : j.wellFormed s.cfg = true) => Instr.present_of_wellFormed hw
  cases i with
  | illegalAllZero | cLq | cSq | cLqsp | cSqsp => exact keepsInv_illegal h
  | ecall | ebreak | cEbreak => exact keepsInv_legal h fun _ => keepsInv_raise h _ _ _
  | fence | fenceTso | pause | cSlli64 | cSrli64 | cSrai64 => exact keepsInv_noEffect h
  | fenceI => exact keepsInv_legal h fun hw => keepsInv_retire hw (h.congr rfl rfl rfl rfl rfl)
  | beq | bne | blt | bge | bltu | bgeu | cBeqz | cBnez => exact keepsInv_branch h _ _ _ (target _ _)
  | jal | cJal | cJ => exact keepsInv_jumpLink h _ (target _ _)
  | jalr => exact keepsInv_jumpLink h _ (Config.fitsX_clearBit0 (s.cfg.fitsX_addX _ _))
  | cJr | cJalr => exact keepsInv_jumpLink h _ (Config.fitsX_clearBit0 (h.fits_readX _))
  | lb | lh | lw | lbu | lhu | lwu | ld | cLw | cLd | cLwsp | cLdsp => exact keepsInv_loadX h _ _ _ _
  | sb | sh | sw | sd | cSw | cSd | cSwsp | cSdsp => exact keepsInv_storeX h _ _ _
  | lrW | lrD => exact keepsInv_loadReserved h _ _ _
  | scW | scD => exact keepsInv_storeConditional h _ _ _ _
  | amoswapW | amoaddW | amoxorW | amoandW | amoorW | amominW | amomaxW | amominuW | amomaxuW | amoswapD | amoaddD
  | amoxorD | amoandD | amoorD | amominD | amomaxD | amominuD | amomaxuD => exact keepsInv_amo h _ _ _ _ _
  | csrrw | csrrs | csrrc | csrrwi | csrrsi | csrrci => exact keepsInv_csrOp h _ _ _ _ _ _
  | fsw | cFsw | cFswsp => exact keepsInv_fpStore h .s _ _
  | fsd | cFsd | cFsdsp => exact keepsInv_fpStore h .d _ _
  | fsq => exact keepsInv_fpStore h .q _ _
  | flw | cFlw | cFlwsp => exact keepsInv_fpLoad (F := .s) h hs _ _
  | fld =>
    refine keepsInv_fpLoad h (fun hw => ?_) _ _
    exact Fmt.width_d_le (present hw)
  | cFld | cFldsp =>
    refine keepsInv_fpLoad h (fun hw => ?_) _ _
    exact width_d_of_and (present hw)
  | flq =>
    refine keepsInv_fpLoad h (fun hw => ?_) _ _
    exact Fmt.width_q_le (present hw)
  | fmaddS | fmsubS | fnmsubS | fnmaddS | faddS | fsubS | fmulS | fdivS | fsqrtS | fcvtSW | fcvtSWU | fcvtSL
  | fcvtSLU | fcvtSD | fcvtSQ => exact keepsInv_fpRounded (F := .s) h hs _ _ _
  | fmaddD | fmsubD | fnmsubD | fnmaddD | faddD | fsubD | fmulD | fdivD | fsqrtD | fcvtDW | fcvtDWU | fcvtDS =>
    refine keepsInv_fpRounded (F := .d) h (fun hw => ?_) _ _ _
    exact Fmt.width_d_le (present hw)
  | fcvtDL | fcvtDLU =>
    refine keepsInv_fpRounded (F := .d) h (fun hw => ?_) _ _ _
    exact width_d_of_and (present hw)
  | fcvtDQ =>
    refine keepsInv_fpRounded (F := .d) h (fun hw => ?_) _ _ _
    exact Nat.le_trans (by decide) (Fmt.width_q_le (present hw))
  | fmaddQ | fmsubQ | fnmsubQ | fnmaddQ | faddQ | fsubQ | fmulQ | fdivQ | fsqrtQ | fcvtQW | fcvtQWU | fcvtQS
  | fcvtQD =>
    refine keepsInv_fpRounded (F := .q) h (fun hw => ?_) _ _ _
    exact Fmt.width_q_le (present hw)
  | fcvtQL | fcvtQLU =>
    refine keepsInv_fpRounded (F := .q) h (fun hw => ?_) _ _ _
    exact width_q_of_and (present hw)
  | fminS | fmaxS | fsgnjS | fsgnjnS | fsgnjxS => exact keepsInv_fpExact (F := .s) h hs _ _
  | fminD | fmaxD | fsgnjD | fsgnjnD | fsgnjxD =>
    refine keepsInv_fpExact (F := .d) h (fun hw => ?_) _ _
    exact Fmt.width_d_le (present hw)
  | fminQ | fmaxQ | fsgnjQ | fsgnjnQ | fsgnjxQ =>
    refine keepsInv_fpExact (F := .q) h (fun hw => ?_) _ _
    exact Fmt.width_q_le (present hw)
  | fmvWX => exact keepsInv_writeFp (F := .s) h hs _ _
  | fmvDX =>
    refine keepsInv_writeFp (F := .d) h (fun hw => ?_) _ _
    exact width_d_of_and (present hw)
  | fcvtWS | fcvtWUS | fcvtLS | fcvtLUS | fcvtWD | fcvtWUD | fcvtLD | fcvtLUD | fcvtWQ | fcvtWUQ | fcvtLQ
  | fcvtLUQ => exact keepsInv_withRounding h _ fun hw m => keepsInv_intResult h hw _ _ _
  | feqS | fltS | fleS | feqD | fltD | fleD | feqQ | fltQ | fleQ | fclassS | fclassD | fclassQ =>
    exact keepsInv_legal h fun hw => keepsInv_intResult h hw _ _ _
  | _ => exact keepsInv_setReg h _ _ -- what is left writes one integer register

theorem followLoop_keepsInv {r : Result} (h : KeepsInv r) (i : Instr) (s : State) : KeepsInv (followLoop i s r) := by
  rcases followLoop_cases i s r with he | ⟨t, l, rfl, -, -, he⟩ <;> rw [he]
  · exact h
  · exact keepsInv_next ((h t rfl).congr rfl rfl rfl rfl rfl)

theorem resumeAt_keepsInv {s : State} (h : s.Inv) {target : Word} (hf : s.cfg.fitsX target = true) :
    KeepsInv (resumeAt target s) := by
  cases ha : s.cfg.aligned target with
  | true => rw [resumeAt_of_aligned ha]; exact keepsInv_next ((h.withPc hf ha).congr rfl rfl rfl rfl rfl)
  | false => rw [resumeAt_of_misaligned ha]; rintro _ ⟨⟩

theorem resume_keepsInv (f : Resume) (r : TrapRecord) {s : State} (h : s.Inv) : KeepsInv (resume f r s) := by
  cases f with
  | skip => exact resumeAt_keepsInv h (s.cfg.fitsX_addX _ _)
  | retry => exact resumeAt_keepsInv h (s.cfg.fitsX_truncate _)
  | service => exact resumeAt_keepsInv (h.serve _) (by rw [State.serve_cfg]; exact s.cfg.fitsX_truncate _)

theorem stepTrapped_keepsInv (r : TrapRecord) {s : State} (h : s.Inv) : KeepsInv (stepTrapped r s) := by
  unfold stepTrapped
  split
  · exact keepsInv_next h
  · exact resume_keepsInv _ r h

/-- Settles O3: a fetch touches only the model's own fields, the instruction keeps the invariant, and so does what a
step adds to it; a trapped hart resumes at an aligned address of XLEN bits. -/
theorem stepKeepsInvariant : Obligations.StepKeepsInvariant := by
  intro s t hinv
  rw [State.inv_iff] at hinv ⊢
  suffices h : KeepsInv (step s) from h t
  unfold step
  split
  · exact stepTrapped_keepsInv _ hinv
  · split
    · rcases s.fetch_cases with ⟨p, d, hf⟩ | ⟨k, d, hf⟩ <;> rw [hf] <;>
        have hs' : State.Inv { s with launched := true, draws := d } := hinv.congr rfl rfl rfl rfl rfl
      · exact keepsInv_raise hs' _ _ _
      · simp only
        split
        · exact followLoop_keepsInv (exec_keepsInv _ hs') _ _
        · exact keepsInv_raise hs' _ _ _
    · split <;> rintro _ ⟨⟩

end Sys2Proof.Machine
end

section
/-! PROOFS. The checks of an access and what a completing instruction leaves of memory and of the rest of the state
(20_memory.md R65, R67 to R73; 44_a.md R331, R337; 10_state.md R46). -/

namespace Sys2Proof.Machine

/-! ### An access whose checks fail -/

/-- In every shape with an access, the checks come before any effect (20_memory.md R73). -/
theorem Shape.traps_of_fault {i : Instr} {s : State} {p : Footprint} {o : Result} (h : Shape i s p o)
    (hw : i.wellFormed s.cfg = true) {a : Access} (ha : p.access = some a) {cause : Cause}
    (hf : a.fault s.cfg = some cause) : o = .next (s.trap cause a.ea i.ilen) := by
  cases h with
  | loadX | fpLoad => cases ha; exact (legal_of_wf i s hw _).trans (load_of_fault i s hf _)
  | storeX | fpStore => cases ha; exact (legal_of_wf i s hw _).trans (store_of_fault i s hf _)
  | loadReserved => cases ha; exact (legal_of_wf i s hw _).trans (loadReserved_of_fault i s hf _)
  | storeConditional => cases ha; exact (legal_of_wf i s hw _).trans (storeConditional_of_fault i s hf _ _)
  | amo => cases ha; exact (legal_of_wf i s hw _).trans (amo_of_fault i s hf _ _ _)
  | _ => cases ha

/-- Settles O32: the shape of the instruction checks the access that the footprint names. -/
theorem faultingAccessTraps : Obligations.FaultingAccessTraps :=
  fun i s _ _ hw ha hf => (exec_shape i s).traps_of_fault hw ha hf

/-! ### When the checks fail -/

/-- A byte is accessible where the region that holds it permits the access at its width (20_memory.md R70). -/
theorem accessible_iff (c : Config) (kind : AccessKind) (atomic : Bool) (n b : Nat) :
    accessible c kind atomic n b = true ↔ ∃ r, regionAt c b = some r ∧ (kind ≠ .write → r.read = true) ∧
      (kind ≠ .read → r.write = true) ∧ n ∈ r.widths ∧ (atomic = true → r.atomic = true) := by
  unfold accessible
  cases regionAt c b with
  | none => simp
  | some r => cases kind <;> cases atomic <;> simp [and_assoc]

theorem accessFault_eq_ite (c : Config) (kind : AccessKind) (atomic : Bool) (ea : Word) (n : Nat) :
    accessFault c kind atomic ea n =
      if ∀ i < n, accessible c kind atomic n ((ea.toNat + i) % 2 ^ c.xlen) = true then none
      else some (accessCause kind) := by
  simp [accessFault, byteAddrs]

theorem misalignedCause_eq (kind : AccessKind) :
    misalignedCause kind = if kind = .read then .loadAddressMisaligned else .storeAddressMisaligned := by
  cases kind <;> rfl

theorem accessCause_eq (kind : AccessKind) :
    accessCause kind = if kind = .read then .loadAccessFault else .storeAccessFault := by
  cases kind <;> rfl

theorem isMisaligned_iff (ea : Word) (n : Nat) : isMisaligned ea n = true ↔ ea.toNat % n ≠ 0 := by
  simp [isMisaligned]

/-- An aligned access is checked for accessibility alone. -/
theorem Access.fault_of_aligned {a : Access} (h : isMisaligned a.ea a.n = false) (c : Config) :
    a.fault c = accessFault c a.kind a.atomic a.ea a.n := by
  unfold Access.fault
  cases ha : a.atomic <;> simp [dataFault, atomicFault, h]

/-- A misaligned load or store does what MISALIGNED asks for (20_memory.md R68). -/
theorem Access.fault_of_misaligned_data {a : Access} (ha : a.atomic = false) (h : isMisaligned a.ea a.n = true)
    (c : Config) :
    (misalignedEffect c a.ea a.n = .addressMisaligned → a.fault c = some (misalignedCause a.kind)) ∧
      (misalignedEffect c a.ea a.n = .accessFault → a.fault c = some (accessCause a.kind)) ∧
      (misalignedEffect c a.ea a.n = .complete → a.fault c = accessFault c a.kind a.atomic a.ea a.n) := by
  refine ⟨?_, ?_, ?_⟩ <;> intro hp <;> simp [Access.fault, ha, dataFault, h, hp]

/-- Of the misaligned atomics only an AMO goes on, with Zam (44_a.md R331). -/
theorem Access.fault_of_misaligned_atomic {a : Access} (ha : a.atomic = true) (h : isMisaligned a.ea a.n = true)
    (c : Config) : a.fault c =
      if a.kind = .readWrite ∧ c.ext.zam = true then accessFault c a.kind a.atomic a.ea a.n
      else some (misalignedCause a.kind) := by
  simp only [Access.fault, ha, if_true, atomicFault, h, Bool.true_and]
  cases c.ext.zam <;> cases a.kind <;> rfl

/-- Settles O33: alignment decides first, and an access that goes on is checked byte by byte. -/
theorem alignedAccessesNeverMisaligned : Obligations.AlignedAccessesNeverMisaligned := by
  intro c a misaligned permitted accessible misalignedCause accessCause policy
  have checked : (accessible → accessFault c a.kind a.atomic a.ea a.n = none) ∧
      (¬ accessible → accessFault c a.kind a.atomic a.ea a.n = some accessCause) := by
    simp only [accessFault_eq_ite, accessible_iff, accessCause_eq]
    exact ⟨fun h => if_pos h, fun h => if_neg h⟩
  refine ⟨fun ha hm => ?_, fun ha hm => ?_, fun hm => ?_, fun hr => ?_⟩
  · have hf := Access.fault_of_misaligned_data ha ((isMisaligned_iff _ _).2 hm) c
    rw [misalignedCause_eq, accessCause_eq] at hf
    obtain ⟨hmis, hacc, hgo⟩ := hf
    exact ⟨hmis, hacc, fun hp => by rw [hgo hp]; exact checked⟩
  · rw [Access.fault_of_misaligned_atomic ha ((isMisaligned_iff _ _).2 hm), misalignedCause_eq]
    refine ⟨fun hk => if_neg ?_, fun hk hz => ?_⟩
    · rintro ⟨hk', hz⟩
      exact hk.elim (absurd hk') fun hz' => by simp [hz] at hz'
    · rw [if_pos ⟨hk, hz⟩]
      exact checked
  · rw [Access.fault_of_aligned (Bool.eq_false_iff.2 (mt (isMisaligned_iff _ _).1 hm))]
    exact checked
  · show misalignedEffect c a.ea a.n = c.misaligned
    unfold misalignedEffect
    rw [hr]
    rfl

/-! ### What a footprint leaves of memory and of the state that is no register -/

/-- From `s` to `t` nothing has changed of the state but the registers, `fcsr`, `pc` and the draw counter, and what the
footprint names: the bytes stored to, the candidates of a fetch, the reservation, `cycle` and `time`. -/
structure Footprint.Frames (p : Footprint) (s t : State) : Prop where
  read : ∀ a, a ∉ p.storedBytes s.cfg → Memory.read t.memory a = Memory.read s.memory a
  memory : p.storedBytes s.cfg = [] → t.memory = s.memory ∧ t.ioTrace = s.ioTrace
  stale : p.storedBytes s.cfg = [] → p.candidates = false → t.stale = s.stale
  reservation : p.reservation = false → t.reservation = s.reservation
  counters : p.counters = false → t.cycle = s.cycle ∧ t.time = s.time
  kept : t.cfg = s.cfg ∧ t.hpm = s.hpm ∧ t.instret = s.instret ∧ t.loop = s.loop ∧ t.launched = s.launched

/-- A result that completes does so from a state that the footprint allows. -/
def Footprint.FramesResult (p : Footprint) (s : State) (o : Result) : Prop :=
  ∀ t, o = .next t → t.status = .running → ∃ u target, p.Frames s u ∧ t = u.retireTo target

section Frames

variable {p : Footprint} {s t u : State}

theorem Footprint.Frames.of_eq (h : t = { s with x := t.x, f := t.f, fcsr := t.fcsr, draws := t.draws }) :
    p.Frames s t := by
  rw [h]
  exact ⟨fun _ _ => rfl, fun _ => ⟨rfl, rfl⟩, fun _ _ => rfl, fun _ => rfl, fun _ => ⟨rfl, rfl⟩,
    ⟨rfl, rfl, rfl, rfl, rfl⟩⟩

theorem Footprint.Frames.trans (h : p.Frames s t) (h' : p.Frames t u) : p.Frames s u := by
  obtain ⟨hcfg, hhpm, hret, hloop, hl⟩ := h.kept
  obtain ⟨hcfg', hhpm', hret', hloop', hl'⟩ := h'.kept
  have same : p.storedBytes t.cfg = p.storedBytes s.cfg := by rw [hcfg]
  exact {
    read := fun a ha => (h'.read a (same ▸ ha)).trans (h.read a ha)
    memory := fun hs =>
      ⟨(h'.memory (same ▸ hs)).1.trans (h.memory hs).1, (h'.memory (same ▸ hs)).2.trans (h.memory hs).2⟩
    stale := fun hs hc => (h'.stale (same ▸ hs) hc).trans (h.stale hs hc)
    reservation := fun hr => (h'.reservation hr).trans (h.reservation hr)
    counters := fun hc => ⟨(h'.counters hc).1.trans (h.counters hc).1, (h'.counters hc).2.trans (h.counters hc).2⟩
    kept := ⟨hcfg'.trans hcfg, hhpm'.trans hhpm, hret'.trans hret, hloop'.trans hloop, hl'.trans hl⟩ }

theorem frames_refl : p.Frames s s := .of_eq rfl

theorem frames_writeX (rd : Reg) (v : Word) : p.Frames s (s.writeX rd v) := by
  refine .of_eq ?_
  unfold State.writeX
  split <;> rfl

theorem frames_writeFp (F : Fmt) (rd : Reg) (v : BitVec F.width) : p.Frames s (s.writeFp F rd v) := .of_eq rfl

theorem frames_accrue (fl : FFlags) : p.Frames s (s.accrue fl) := .of_eq rfl

theorem frames_memRead (ea : Word) (n : Nat) (w : Bool) : p.Frames s (s.memRead ea n w).2 := by
  obtain ⟨_, h⟩ := s.memRead_eq ea n w
  rw [h]; exact .of_eq rfl

theorem frames_scMayFail (ea : Word) (n : Nat) : p.Frames s (s.scMayFail ea n).2 := by
  rw [State.scMayFail_snd]; exact .of_eq rfl

/-- A store of no bytes stores nothing. -/
theorem State.memWrite_of_no_bytes (s : State) {ea : Word} {n : Nat} (h : byteAddrs s.cfg ea n = [])
    (v : BitVec (8 * n)) (w : Bool) : s.memWrite ea n v w = s := by
  have hc : storeCells s.cfg ea n v = [] := by rw [← List.map_eq_nil_iff, storeCells_fst, h]
  rw [State.memWrite_main s v w (by simp [h]), hc]
  rfl

theorem frames_memWrite {kind : AccessKind} {atomic : Bool} {ea : Word} {n : Nat}
    (ha : p.access = some ⟨kind, atomic, ea, n⟩) (hk : kind ≠ .read) (v : BitVec (8 * n)) (w : Bool) :
    p.Frames s (s.memWrite ea n v w) := by
  have hstored : p.storedBytes s.cfg = byteAddrs s.cfg ea n := by
    unfold Footprint.storedBytes
    rw [ha]
    cases kind with
    | read => exact absurd rfl hk
    | write | readWrite => rfl
  by_cases hn : byteAddrs s.cfg ea n = []
  · rw [s.memWrite_of_no_bytes hn]; exact frames_refl
  · have hread : ∀ a, a ∉ p.storedBytes s.cfg → _ := fun a ha => s.read_memWrite_other ea n v w a (hstored ▸ ha)
    rw [← hstored] at hn
    obtain ⟨_, _, _, _, he⟩ := s.memWrite_eq ea n v w
    rw [he] at hread ⊢
    exact ⟨hread, fun h => absurd h hn, fun h => absurd h hn, fun _ => rfl, fun _ => ⟨rfl, rfl⟩,
      ⟨rfl, rfl, rfl, rfl, rfl⟩⟩

theorem frames_reservation (h : p.reservation = true) (r : Option Reservation) :
    p.Frames s { s with reservation := r } :=
  { frames_refl (s := s) with reservation := fun hr => absurd h (by simp [hr]) }

theorem frames_stale (h : p.candidates = true) (l : List Host.Cell) : p.Frames s { s with stale := l } :=
  { frames_refl (s := s) with stale := fun _ hc => absurd h (by simp [hc]) }

theorem frames_csrRead (h : p.counters = true) (r : Csr) : p.Frames s (s.csrRead r).2 := by
  rw [State.csrRead_snd]
  exact { frames_refl (s := s) with counters := fun hc => absurd h (by simp [hc]) }

theorem frames_csrWrite (r : Csr) (v : Word) : p.Frames s (s.csrWrite r v) := by
  rw [State.csrWrite_eq]; exact .of_eq rfl

/-! ### The results of the shared operations -/

variable {i : Instr}

theorem framesResult_retire (h : p.Frames s t) : p.FramesResult s (retire i t) := by
  rintro _ ⟨⟩ -; exact ⟨t, _, h, rfl⟩

/-- A trap is no completion. -/
theorem framesResult_raise (cause : Cause) (tval : Word) (len : Nat) :
    p.FramesResult s (raise cause tval len s) := by
  rintro _ ⟨⟩ ⟨⟩

theorem framesResult_legal {o : Result} (h : p.FramesResult s o) : p.FramesResult s (legal i s o) := by
  unfold legal
  split
  · exact h
  · exact framesResult_raise _ _ _

theorem framesResult_withRounding {rm : BitVec 3} {body : Rounding → Result}
    (h : ∀ m, p.FramesResult s (body m)) : p.FramesResult s (withRounding i rm s body) := by
  refine framesResult_legal ?_
  split
  · exact framesResult_raise _ _ _
  · exact h _

theorem framesResult_jump {target : Word} (h : p.Frames s t) : p.FramesResult s (jump i target s t) := by
  unfold jump
  split
  · rintro _ ⟨⟩ -; exact ⟨t, _, h, rfl⟩
  · exact framesResult_raise _ _ _

theorem framesResult_branch (test : (w : Nat) → BitVec w → BitVec w → Bool) (rs1 rs2 : Reg) (target : Word) :
    p.FramesResult s (branch i test rs1 rs2 target s) := by
  refine framesResult_legal ?_
  split
  · exact framesResult_jump frames_refl
  · exact framesResult_retire frames_refl

theorem framesResult_load {n : Nat} {ea : Word} {put : BitVec (8 * n) → State → State}
    (h : ∀ v u, p.Frames u (put v u)) : p.FramesResult s (load i n ea put s) := by
  unfold load
  split
  · exact framesResult_raise _ _ _
  · exact framesResult_retire ((frames_memRead _ _ _).trans (h _ _))

theorem framesResult_store {n : Nat} {ea : Word} (ha : p.access = some ⟨.write, false, ea, n⟩) (v : BitVec (8 * n)) :
    p.FramesResult s (store i n ea v s) := by
  unfold store
  split
  · exact framesResult_raise _ _ _
  · exact framesResult_retire (frames_memWrite ha (by decide) v _)

theorem framesResult_loadReserved (hr : p.reservation = true) (n : Nat) (rd rs1 : Reg) :
    p.FramesResult s (loadReserved i n rd rs1 s) := by
  unfold loadReserved
  simp only
  split
  · exact framesResult_raise _ _ _
  · exact framesResult_retire (((frames_memRead _ n _).trans (frames_reservation hr _)).trans (frames_writeX _ _))

theorem framesResult_storeConditional {n : Nat} {rs1 : Reg} (hr : p.reservation = true)
    (ha : p.access = some ⟨.write, true, s.readX rs1, n⟩) (rd rs2 : Reg) :
    p.FramesResult s (storeConditional i n rd rs1 rs2 s) := by
  unfold storeConditional
  simp only
  split
  · exact framesResult_raise _ _ _
  · refine framesResult_retire (((frames_scMayFail (s.readX rs1) n).trans ?_).trans (frames_writeX _ _))
    split
    · exact (frames_memWrite ha (by decide) _ _).trans (frames_reservation hr _)
    · exact frames_reservation hr _

theorem framesResult_amo {n : Nat} {rs1 : Reg} (ha : p.access = some ⟨.readWrite, true, s.readX rs1, n⟩)
    (op : BitVec (8 * n) → BitVec (8 * n) → BitVec (8 * n)) (rd rs2 : Reg) :
    p.FramesResult s (amo i n op rd rs1 rs2 s) := by
  unfold amo
  simp only
  split
  · exact framesResult_raise _ _ _
  · exact framesResult_retire
      (((frames_memRead _ n _).trans (frames_memWrite ha (by decide) _ _)).trans (frames_writeX _ _))

theorem framesResult_csrOp (hc : p.counters = true) (rd : Reg) (csr : BitVec 12) (reads writes : Bool) (src : Word)
    (f : Word → Word → Word) : p.FramesResult s (csrOp i rd csr reads writes src f s) := by
  have written : ∀ (u : State) (r : Csr) (v : Word), p.Frames u (if writes then u.csrWrite r v else u) := by
    intro u r v
    split
    · exact frames_csrWrite r v
    · exact frames_refl
  unfold csrOp
  split
  · exact framesResult_raise _ _ _
  · split
    · exact framesResult_raise _ _ _
    · refine framesResult_retire ?_
      cases reads with
      | true => exact ((frames_csrRead hc _).trans (written _ _ _)).trans (frames_writeX _ _)
      | false => exact written _ _ _

theorem framesResult_fpResult (F : Fmt) (rd : Reg) (r : BitVec F.width × FFlags) :
    p.FramesResult s (fpResult i F rd r s) :=
  framesResult_retire ((frames_writeFp F rd r.1).trans (frames_accrue r.2))

theorem framesResult_intResult (rd : Reg) (v : Word) (fl : FFlags) : p.FramesResult s (intResult i rd v fl s) :=
  framesResult_retire ((frames_writeX rd v).trans (frames_accrue fl))

end Frames

/-- Each shape that completes leaves what its footprint does not name. -/
theorem Shape.frames {i : Instr} {s : State} {p : Footprint} {o : Result} (h : Shape i s p o) :
    p.FramesResult s o := by
  cases h with
  | illegal => exact framesResult_raise _ _ _
  | raise cause tval len => exact framesResult_legal (framesResult_raise _ _ _)
  | noEffect => exact framesResult_legal (framesResult_retire frames_refl)
  | fenceI => exact framesResult_legal (framesResult_retire (frames_stale rfl _))
  | setReg | setReg_x0 | fpMoveToX => exact framesResult_legal (framesResult_retire (frames_writeX _ _))
  | branch test rs1 rs2 target => exact framesResult_branch test rs1 rs2 target
  | jumpLink | jumpLink_x0 => exact framesResult_legal (framesResult_jump (frames_writeX _ _))
  | loadX => exact framesResult_legal (framesResult_load fun _ _ => frames_writeX _ _)
  | fpLoad => exact framesResult_legal (framesResult_load fun _ _ => frames_writeFp _ _ _)
  | storeX | fpStore => exact framesResult_legal (framesResult_store rfl _)
  | loadReserved => exact framesResult_legal (framesResult_loadReserved rfl _ _ _)
  | storeConditional => exact framesResult_legal (framesResult_storeConditional rfl rfl _ _)
  | amo => exact framesResult_legal (framesResult_amo rfl _ _ _)
  | csr => exact framesResult_legal (framesResult_csrOp rfl _ _ _ _ _ _)
  | fpRounded => exact framesResult_withRounding fun _ => framesResult_fpResult _ _ _
  | fpChoose | fpSign => exact framesResult_legal (framesResult_fpResult _ _ _)
  | fpMoveFromX => exact framesResult_legal (framesResult_retire (frames_writeFp _ _ _))
  | intRounded => exact framesResult_withRounding fun _ => framesResult_intResult _ _ _
  | fpCompare | fpClass => exact framesResult_legal (framesResult_intResult _ _ _)

/-- Settles O60: an instruction that completes retires once from a state that its footprint frames. -/
theorem memoryAndStateFrame : Obligations.MemoryAndStateFrame := by
  intro i s t _ h ht
  obtain ⟨u, target, hu, rfl⟩ := (exec_shape i s).frames t h ht
  obtain ⟨hcfg, hhpm, hret, hloop, hl⟩ := hu.kept
  exact ⟨hu.read, hu.memory, hu.stale, hu.reservation, hu.counters, hcfg, hhpm, congrArg (· + 1) hret, hloop, hl⟩

end Sys2Proof.Machine
end

section
/-! PROOFS. The bytes of an access: how they make up a value in either byte order, where a read takes them from and
where a write puts them (20_memory.md R60, R61, R64, R65, R71, R72, R77; 21_memory_model.md R101). -/

namespace Sys2Proof.Machine

/-! ### Bytes and values -/

/-- A byte up is a factor of 256. -/
theorem two_pow_byte_succ (i : Nat) : 2 ^ (8 * (i + 1)) = 256 * 2 ^ (8 * i) := by
  rw [Nat.mul_succ, pow_add, Nat.mul_comm, show 2 ^ 8 = 256 from rfl]

theorem fromLittle_cons (b : Byte) (bs : List Byte) : fromLittle (b :: bs) = b.toNat + 256 * fromLittle bs := rfl

/-- Byte `i` of a number made of bytes is the byte it was made of. -/
theorem fromLittle_byte {bs : List Byte} {i : Nat} (h : i < bs.length) :
    fromLittle bs / 2 ^ (8 * i) % 256 = bs[i].toNat := by
  induction bs generalizing i with
  | nil => exact absurd h (Nat.not_lt_zero _)
  | cons b bs ih =>
    have hb := b.isLt
    rw [fromLittle_cons]
    cases i with
    | zero => simp only [Nat.mul_zero, pow_zero, Nat.div_one, List.getElem_cons_zero]; omega
    | succ i =>
      have hshift : (b.toNat + 256 * fromLittle bs) / 256 = fromLittle bs := by omega
      rw [two_pow_byte_succ, ← Nat.div_div_eq_div_mul, hshift, List.getElem_cons_succ]
      exact ih (Nat.lt_of_succ_lt_succ h)

/-- Byte `i` of the value of `n` bytes. -/
theorem extractLsb'_ofNat_fromLittle {bs : List Byte} {i : Nat} (h : i < bs.length) :
    (BitVec.ofNat (8 * bs.length) (fromLittle bs)).extractLsb' (8 * i) 8 = bs[i] := by
  apply BitVec.eq_of_toNat_eq
  rw [← fromLittle_byte h, BitVec.extractLsb'_toNat, BitVec.toNat_ofNat, Nat.shiftRight_eq_div_pow]
  have hsplit : 2 ^ (8 * bs.length) = 2 ^ (8 * i) * (256 * 2 ^ (8 * (bs.length - i - 1))) := by
    rw [show (256 : Nat) = 2 ^ 8 from rfl, ← pow_add, ← pow_add]
    congr 1
    omega
  rw [hsplit, Nat.mod_mul_right_div_self]
  exact Nat.mod_mul_right_mod _ _ _

theorem toLittle_getElem? {n i : Nat} (h : i < n) (v : BitVec (8 * n)) :
    (toLittle n v.toNat)[i]? = some (v.extractLsb' (8 * i) 8) := by
  rw [toLittle, List.getElem?_map, List.getElem?_range h]
  refine congrArg some (BitVec.eq_of_toNat_eq ?_)
  rw [BitVec.toNat_ofNat, BitVec.extractLsb'_toNat, Nat.shiftRight_eq_div_pow]

/-- The byte that a store of `v` puts at its `i`-th address (20_memory.md R65). -/
def storedByte (e : Endian) (n : Nat) (v : BitVec (8 * n)) (i : Nat) : Byte :=
  match e with
  | .little => v.extractLsb' (8 * i) 8
  | .big => v.extractLsb' (8 * (n - 1 - i)) 8

theorem toBytes_getElem? (e : Endian) {n i : Nat} (h : i < n) (v : BitVec (8 * n)) :
    (toBytes e n v.toNat)[i]? = some (storedByte e n v i) := by
  cases e with
  | little => exact toLittle_getElem? h v
  | big =>
    rw [toBytes, List.getElem?_reverse (by rwa [toLittle_length]), toLittle_length]
    exact toLittle_getElem? (by omega) v

theorem toLittle_succ (n v : Nat) : toLittle (n + 1) v = BitVec.ofNat 8 v :: toLittle n (v / 256) := by
  simp only [toLittle, List.range_succ_eq_map, List.map_cons, List.map_map, Nat.mul_zero, pow_zero, Nat.div_one]
  congr 2
  funext i
  simp only [Function.comp_apply, Nat.succ_eq_add_one]
  rw [Nat.div_div_eq_div_mul, two_pow_byte_succ]

theorem fromLittle_toLittle (n v : Nat) : fromLittle (toLittle n v) = v % 2 ^ (8 * n) := by
  induction n generalizing v with
  | zero => rw [Nat.mul_zero, pow_zero, Nat.mod_one]; rfl
  | succ n ih =>
    rw [toLittle_succ, fromLittle_cons, ih, BitVec.toNat_ofNat, two_pow_byte_succ]
    exact (Nat.mod_mul (x := v) (a := 256) (b := 2 ^ (8 * n))).symm

/-- A value is made of its bytes again, in either order. -/
theorem fromBytes_toBytes (e : Endian) {n : Nat} (v : BitVec (8 * n)) :
    fromBytes e (toBytes e n v.toNat) = v.toNat := by
  have h : fromLittle (toLittle n v.toNat) = v.toNat := (fromLittle_toLittle n _).trans (Nat.mod_eq_of_lt v.isLt)
  cases e with
  | little => exact h
  | big => rwa [toBytes, fromBytes, List.reverse_reverse]

/-! ### `MemRead` -/

theorem byteAddrs_getElem? (c : Config) (ea : Word) {n i : Nat} (h : i < n) :
    (byteAddrs c ea n)[i]? = some ((ea.toNat + i) % 2 ^ c.xlen) := by
  rw [byteAddrs, List.getElem?_map, List.getElem?_range h]; rfl

theorem mem_byteAddrs {c : Config} {ea : Word} {n a : Nat} :
    a ∈ byteAddrs c ea n ↔ ∃ i < n, (ea.toNat + i) % 2 ^ c.xlen = a := by
  simp [byteAddrs]

theorem State.readBytes_getElem? (s : State) (ea : Word) {n i : Nat} (w : Bool) (h : i < n) :
    (s.readBytes ea n w)[i]? = some (s.byteOf ea n i ((ea.toNat + i) % 2 ^ s.cfg.xlen) w) := by
  rw [State.readBytes, List.getElem?_mapIdx, byteAddrs_getElem? s.cfg ea h]; rfl

/-- Settles O34: the value read is made of the bytes read, the last of them first in big-endian order. -/
theorem memReadOrdersBytes : Obligations.MemReadOrdersBytes := by
  intro s ea n i w hi bs v
  have hlen : bs.length = n := s.readBytes_length ea n w
  have hv : v = BitVec.ofNat (8 * n) (fromBytes s.cfg.endian bs) := rfl
  clear_value bs v
  have byte : ∀ {l : List Byte} {k : Nat}, l.length = n → k < n →
      l[k]? = some ((BitVec.ofNat (8 * n) (fromLittle l)).extractLsb' (8 * k) 8) := by
    rintro l k rfl hk
    rw [extractLsb'_ofNat_fromLittle hk, List.getElem?_eq_getElem hk]
  constructor <;> intro he <;> rw [hv, he]
  · exact byte hlen hi
  · have h := byte (l := bs.reverse) (k := n - 1 - i) (by simpa) (by omega)
    rwa [List.getElem?_reverse (by omega), hlen, show n - 1 - (n - 1 - i) = i by omega] at h

/-! ### The memory operations of an access -/

/-- Sorting the numbers below `n` by a value below `n` keeps each of them once. -/
theorem flatten_classes_perm {n : Nat} {f : Nat → Nat} (hf : ∀ i < n, f i < n) :
    ((List.range n).map fun k => (List.range n).filter fun i => f i == k).flatten.Perm (List.range n) := by
  refine (List.perm_ext_iff_of_nodup ?_ List.nodup_range).2 fun i => ?_
  · refine List.nodup_flatten.2 ⟨?_, ?_⟩
    · simp only [List.mem_map, forall_exists_index, and_imp]
      rintro _ k - rfl
      exact List.nodup_range.filter _
    · refine List.pairwise_map.2 (List.nodup_range.imp fun {k l} hkl i hk hl => hkl ?_)
      simp only [List.mem_filter, beq_iff_eq] at hk hl
      exact hk.2.symm.trans hl.2
  · simp only [List.mem_flatten, List.mem_map, exists_exists_and_eq_and, List.mem_filter, List.mem_range, beq_iff_eq]
    exact ⟨fun ⟨_, _, hi, _⟩ => hi, fun hi => ⟨f i, hf i hi, hi, rfl⟩⟩

/-- The operations of an access have each of its bytes once (20_memory.md R72). -/
theorem State.operations_perm (s : State) (ea : Word) (n : Nat) (w : Bool) :
    (s.operations ea n w).flatten.Perm (List.range n) := by
  unfold State.operations
  simp only
  split
  · simp
  · rw [List.flatten_filter_not_isEmpty]
    exact flatten_classes_perm fun i hi => Nat.mod_lt _ (by omega)

theorem State.operations_ne_nil (s : State) (ea : Word) {n : Nat} (hn : 0 < n) (w : Bool) {o : List Nat}
    (h : o ∈ s.operations ea n w) : o ≠ [] := by
  unfold State.operations at h
  simp only at h
  split at h
  · rw [List.mem_singleton.1 h, Ne, List.range_eq_nil]
    omega
  · simpa using (List.mem_filter.1 h).2

theorem State.lt_of_mem_operations (s : State) {ea : Word} {n : Nat} {w : Bool} {o : List Nat} {i : Nat}
    (ho : o ∈ s.operations ea n w) (hi : i ∈ o) : i < n :=
  List.mem_range.1 ((s.operations_perm ea n w).mem_iff.1 (List.mem_flatten.2 ⟨o, ho, hi⟩))

/-- What a device supplies to a byte is its byte of the value drawn for the operation it belongs to. -/
theorem State.deviceByte_eq (s : State) (ea : Word) {n i : Nat} (w : Bool) (h : i < n) :
    ∃ (k : Nat) (o : List Nat), (s.operations ea n w)[k]? = some o ∧ i ∈ o ∧
      s.deviceByte ea n i w = (Config.ioValue (s.draws + 1 + k)).extractLsb' (8 * i) 8 := by
  have hmem := (s.operations_perm ea n w).mem_iff.2 (List.mem_range.2 h)
  obtain ⟨o, ho, hi⟩ := List.mem_flatten.1 hmem
  have hlt : (s.operations ea n w).findIdx (fun o => o.contains i) < (s.operations ea n w).length :=
    List.findIdx_lt_length_of_exists ⟨o, ho, by simpa⟩
  refine ⟨_, _, List.getElem?_eq_getElem hlt, ?_, rfl⟩
  simpa using List.findIdx_getElem (w := hlt)

theorem touchesIo_iff (c : Config) (ea : Word) (n : Nat) :
    touchesIo c ea n = true ↔ ∃ i < n, isIo c ((ea.toNat + i) % 2 ^ c.xlen) = true := by
  simp [touchesIo, byteAddrs]

theorem isMisaligned_eq_false {ea : Word} {n : Nat} (h : ea.toNat % n = 0) : isMisaligned ea n = false := by
  simp [isMisaligned, h]

/-- Settles O35: each byte by where its address lies, and the operations are a partition of the bytes. -/
theorem readBytesFollowTheRegions : Obligations.ReadBytesFollowTheRegions := by
  intro s ea n i w hi addr ops
  have hread : (s.readBytes ea n w)[i]? = some (s.byteOf ea n i (addr i) w) := s.readBytes_getElem? ea w hi
  refine ⟨fun hm => ?_, fun hio => ?_, s.operations_perm ea n w,
    fun o ho => s.operations_ne_nil ea (by omega) w ho, fun h => ?_, fun hm => ?_, fun hio => ?_⟩
  · rw [hread, State.byteOf, hm]; rfl
  · obtain ⟨k, o, hk, ho, hb⟩ := s.deviceByte_eq ea w hi
    exact ⟨k, o, hk, ho, by rw [hread, State.byteOf, if_pos hio, hb]⟩
  · refine s.operations_of_indivisible ?_
    rcases h with rfl | ⟨ha, hx⟩
    · rfl
    · simp [oneOperation, isMisaligned_eq_false ha, hx]
  · refine s.memRead_snd_main w (Bool.eq_false_iff.2 fun ht => ?_)
    obtain ⟨j, hj, hjo⟩ := (touchesIo_iff _ _ _).1 ht
    exact Bool.false_ne_true ((hm j hj).symm.trans hjo)
  · exact if_pos ((touchesIo_iff _ _ _).2 hio)

/-! ### `MemWrite` -/

/-- The bytes of an access no wider than the address space have different addresses. -/
theorem byteAddrs_nodup {c : Config} {n : Nat} (hn : n ≤ 2 ^ c.xlen) (ea : Word) : (byteAddrs c ea n).Nodup := by
  refine List.Nodup.map_on (fun i hi j hj h => ?_) List.nodup_range
  rw [List.mem_range] at hi hj
  exact Nat.ModEq.eq_of_lt_of_lt (Nat.ModEq.add_left_cancel' _ h) (by omega) (by omega)

/-- The widths of an access are within the address space. -/
theorem width_le_space (c : Config) {n : Nat} (h : n ∈ [1, 2, 4, 8, 16]) : n ≤ 2 ^ c.xlen := by
  have h16 : n ≤ 2 ^ 4 := by fin_cases h <;> decide
  refine h16.trans (Nat.pow_le_pow_right (by decide) ?_)
  rcases c.xlen_cases with ⟨-, hx⟩ | ⟨-, hx⟩ <;> rw [hx] <;> decide

/-- Cell `i` of a store: its address and its byte. -/
def storeCell (c : Config) (ea : Word) (n : Nat) (v : BitVec (8 * n)) (i : Nat) : Host.Cell :=
  ((ea.toNat + i) % 2 ^ c.xlen, storedByte c.endian n v i)

theorem storeCells_getElem? (c : Config) (ea : Word) {n i : Nat} (h : i < n) (v : BitVec (8 * n)) :
    (storeCells c ea n v)[i]? = some (storeCell c ea n v i) :=
  List.getElem?_zip_eq_some.2 ⟨byteAddrs_getElem? c ea h, toBytes_getElem? c.endian h v⟩

/-- A byte of main memory gets its byte of the value. -/
theorem State.read_memWrite (s : State) {ea : Word} {n i : Nat} (hn : n ≤ 2 ^ s.cfg.xlen) (h : i < n)
    (v : BitVec (8 * n)) (w : Bool) (hm : isIo s.cfg ((ea.toNat + i) % 2 ^ s.cfg.xlen) = false) :
    Memory.read (s.memWrite ea n v w).memory ((ea.toNat + i) % 2 ^ s.cfg.xlen) = storedByte s.cfg.endian n v i := by
  rw [State.memWrite_memory]
  refine s.read_writeCells_same _ _ _ ?_ (List.mem_filter.2 ⟨?_, by simpa using hm⟩)
  · refine List.Nodup.sublist (List.filter_sublist.map _) ?_
    rw [storeCells_fst]
    exact byteAddrs_nodup hn ea
  · exact List.mem_of_getElem? (storeCells_getElem? s.cfg ea h v)

/-- A byte of an I/O region leaves memory as it is (20_memory.md R77). -/
theorem State.read_memWrite_io (s : State) (ea : Word) (n : Nat) (v : BitVec (8 * n)) (w : Bool) {a : Nat}
    (h : isIo s.cfg a = true) : Memory.read (s.memWrite ea n v w).memory a = Memory.read s.memory a := by
  rw [State.memWrite_memory]
  refine s.read_writeCells_other _ _ fun c hc hca => ?_
  simp [hca, h] at hc

/-- What one operation of a store sends to devices. -/
def storeOutput (c : Config) (ea : Word) (n : Nat) (v : BitVec (8 * n)) (o : List Nat) : List Host.Cell :=
  (o.map (storeCell c ea n v)).filter fun w => isIo c w.1

theorem State.outputs_eq (s : State) (ea : Word) (n : Nat) (v : BitVec (8 * n)) (w : Bool) :
    s.outputs ea n v w =
      ((s.operations ea n w).map (storeOutput s.cfg ea n v)).filter fun o => !o.isEmpty := by
  refine congrArg (List.filter _) (List.map_congr_left fun o ho => congrArg (List.filter _) ?_)
  exact List.filterMap_eq_map_iff_forall_eq_some.2 fun i hi =>
    storeCells_getElem? s.cfg ea (s.lt_of_mem_operations ho hi) v

/-- The output trace gets the outputs of the store, none where it touches no device. -/
theorem State.memWrite_ioTrace (s : State) (ea : Word) (n : Nat) (v : BitVec (8 * n)) (w : Bool) :
    (s.memWrite ea n v w).ioTrace = s.ioTrace ++ s.outputs ea n v w := by
  unfold State.memWrite
  simp only
  split
  · rfl
  · rename_i ht
    have hnone : s.outputs ea n v w = [] := by
      rw [State.outputs_eq, List.filter_eq_nil_iff]
      intro l hl
      obtain ⟨o, ho, rfl⟩ := List.mem_map.1 hl
      have hempty : storeOutput s.cfg ea n v o = [] := List.filter_eq_nil_iff.2 fun c hc hio => by
        obtain ⟨i, hi, rfl⟩ := List.mem_map.1 hc
        exact ht ((touchesIo_iff _ _ _).2 ⟨i, s.lt_of_mem_operations ho hi, hio⟩)
      simp [hempty]
    rw [hnone, List.append_nil, State.writeCells_ioTrace]

/-- Settles O36: cell `i` of a store is byte `i` of the value at address `i`, and a cell goes to memory or to
the trace. -/
theorem memWriteOrdersBytes : Obligations.MemWriteOrdersBytes := by
  intro s ea n v w hn t byte addr output
  refine ⟨fun i hi hm => s.read_memWrite (width_le_space _ hn) hi v w hm, fun a ha => ?_,
    fun i _ hio => s.read_memWrite_io ea n v w hio, ?_, ?_⟩
  · refine s.read_memWrite_other ea n v w a fun h => ?_
    obtain ⟨i, hi, he⟩ := mem_byteAddrs.1 h
    exact ha i hi he
  · exact (s.memWrite_ioTrace ea n v w).trans (congrArg _ (s.outputs_eq ea n v w))
  · obtain ⟨_, _, _, _, he⟩ := s.memWrite_eq ea n v w
    show s.memWrite ea n v w = _
    rw [show t = _ from he, he]

/-! ### Reading what has been written -/

/-- The bytes read back from main memory are those written. -/
theorem State.readBytes_memWrite (s : State) {ea : Word} {n : Nat} (hn : n ≤ 2 ^ s.cfg.xlen) (v : BitVec (8 * n))
    (w w' : Bool) (hm : ∀ i < n, isIo s.cfg ((ea.toNat + i) % 2 ^ s.cfg.xlen) = false) :
    (s.memWrite ea n v w).readBytes ea n w' = toBytes s.cfg.endian n v.toNat := by
  refine List.ext_getElem? fun i => ?_
  by_cases hi : i < n
  · rw [State.readBytes_getElem? _ ea w' hi, toBytes_getElem? _ hi, State.byteOf, State.memWrite_cfg,
      if_neg (by simp [hm i hi]), s.read_memWrite hn hi v w (hm i hi)]
  · rw [List.getElem?_eq_none (by rw [State.readBytes_length]; omega),
      List.getElem?_eq_none (by rw [toBytes_length]; omega)]

/-- Settles O37: the bytes written come back, and they make up the value again. -/
theorem loadAfterStoreReturnsValue : Obligations.LoadAfterStoreReturnsValue := by
  intro s ea n v stored loaded hn hm
  refine Prod.ext ?_ (State.memRead_snd_main _ loaded ?_)
  · show BitVec.ofNat (8 * n) (fromBytes _ (State.readBytes _ ea n loaded)) = v
    rw [s.readBytes_memWrite (width_le_space _ hn) v stored loaded hm, State.memWrite_cfg, fromBytes_toBytes,
      BitVec.ofNat_toNat, BitVec.setWidth_eq]
  · refine touchesIo_eq_false fun a ha => ?_
    rw [State.memWrite_cfg] at ha ⊢
    obtain ⟨i, hi, rfl⟩ := mem_byteAddrs.1 ha
    exact hm i hi

end Sys2Proof.Machine
end

section
/-! PROOFS. What a fetch answers and what a step does with it (20_memory.md R60 to R63, R70, R78, R83, R84;
60_exceptions.md R609 to R612; 70_reset_and_hazards.md R646, R652). -/

namespace Sys2Proof.Machine

/-! ### The branches of a fetch -/

section Branches

variable {s s1 s2 : State}

theorem State.fetch_of_launchFails (h : s.launchFails = true) : s.fetch = .fault s.pc { s with launched := true } := by
  unfold State.fetch; rw [if_pos h]

theorem State.fetch_of_first_unfetchable (hp : { s with launched := true }.fetchParcel s.pc = none) :
    s.fetch = .fault s.pc { s with launched := true } := by
  unfold State.fetch
  split
  · rfl
  · simp only [hp]

variable {p0 p1 : BitVec 16} (h : s.launchFails = false)
  (hp : { s with launched := true }.fetchParcel s.pc = some (p0, s1))

include h hp

theorem State.fetch_of_half (hh : isHalf s.cfg p0 = true) : s.fetch = .code (.half p0) s1 := by
  simp [State.fetch, h, hp, hh]

theorem State.fetch_of_second_unfetchable (hh : isHalf s.cfg p0 = false)
    (hp1 : s1.fetchParcel (s.cfg.addX s.pc 2#64) = none) : s.fetch = .fault (s.cfg.addX s.pc 2#64) s1 := by
  simp [State.fetch, h, hp, hh, hp1]

theorem State.fetch_of_word (hh : isHalf s.cfg p0 = false)
    (hp1 : s1.fetchParcel (s.cfg.addX s.pc 2#64) = some (p1, s2)) : s.fetch = .code (.word (p1 ++ p0)) s2 := by
  simp [State.fetch, h, hp, hh, hp1]

end Branches

/-! ### The bytes at `pc` -/

/-- The address of byte `i` at `pc` (20_memory.md R60). -/
def State.codeAddr (s : State) (i : Nat) : Nat := (s.pc.toNat + i) % 2 ^ s.cfg.xlen

/-- How many of the first `k` bytes at `pc` come from a device. -/
def State.codeDraws (s : State) (k : Nat) : Nat := (List.range k).countP fun i => isIo s.cfg (s.codeAddr i)

/-- Byte `i` at `pc`: what its device supplies at its own draw, or the byte of memory. -/
def State.codeByte (s : State) (i : Nat) : Byte :=
  if isIo s.cfg (s.codeAddr i) then (Config.ioValue (s.draws + s.codeDraws i)).setWidth 8
  else Memory.read s.memory (s.codeAddr i)

/-- The state after the fetch of `k` bytes none of which has an older candidate. -/
def State.fetched (s : State) (k : Nat) : State := { s with launched := true, draws := s.draws + s.codeDraws k }

/-- Byte `i` at `pc` may be fetched, and has no older candidate in main memory. -/
def State.PlainCode (s : State) (i : Nat) : Prop :=
  fetchable s.cfg (s.codeAddr i) = true ∧ (isIo s.cfg (s.codeAddr i) = false → ∀ c ∈ s.stale, c.1 ≠ s.codeAddr i)

theorem State.codeDraws_succ (s : State) (k : Nat) :
    s.codeDraws (k + 1) = s.codeDraws k + if isIo s.cfg (s.codeAddr k) then 1 else 0 := by
  rw [State.codeDraws, List.range_succ, List.countP_append, List.countP_singleton]; rfl

theorem State.fetchByte_fetched (s : State) {k : Nat} (h : s.PlainCode k) :
    (s.fetched k).fetchByte (s.codeAddr k) = (s.codeByte k, s.fetched (k + 1)) := by
  obtain ⟨-, hplain⟩ := h
  rw [State.fetched, State.fetched, State.codeByte, State.codeDraws_succ]
  cases hio : isIo s.cfg (s.codeAddr k) with
  | true => simp [State.fetchByte, hio, Nat.add_assoc]
  | false => exact State.fetchByte_plain _ _ hio (hplain hio)

/-- The parcel of the bytes `k` and `k + 1` at `pc`. -/
theorem State.fetchParcel_fetched (s : State) {k : Nat} {a : Word} (h0 : a.toNat % 2 ^ s.cfg.xlen = s.codeAddr k)
    (h1 : (a.toNat + 1) % 2 ^ s.cfg.xlen = s.codeAddr (k + 1)) (hk : s.PlainCode k) (hk1 : s.PlainCode (k + 1)) :
    (s.fetched k).fetchParcel a = some (s.codeByte (k + 1) ++ s.codeByte k, s.fetched (k + 2)) := by
  have hf : (fetchable s.cfg (s.codeAddr k) && fetchable s.cfg (s.codeAddr (k + 1))) = true := by rw [hk.1, hk1.1]; rfl
  unfold State.fetchParcel
  simp only [show (s.fetched k).cfg = s.cfg from rfl, h0, h1, hf, if_true, s.fetchByte_fetched hk,
    s.fetchByte_fetched hk1]
  rfl

theorem State.fetchParcel_eq_none {s t : State} (hc : t.cfg = s.cfg) {k : Nat} {a : Word}
    (h0 : a.toNat % 2 ^ s.cfg.xlen = s.codeAddr k) (h1 : (a.toNat + 1) % 2 ^ s.cfg.xlen = s.codeAddr (k + 1))
    (h : fetchable s.cfg (s.codeAddr k) = false ∨ fetchable s.cfg (s.codeAddr (k + 1)) = false) :
    t.fetchParcel a = none := by
  unfold State.fetchParcel
  simp only [hc, h0, h1]
  rcases h with h | h <;> simp [h]

theorem State.addX_pc_two (s : State) :
    (s.cfg.addX s.pc 2#64).toNat % 2 ^ s.cfg.xlen = s.codeAddr 2 ∧
      ((s.cfg.addX s.pc 2#64).toNat + 1) % 2 ^ s.cfg.xlen = s.codeAddr 3 := by
  rw [Config.addX_toNat, Nat.mod_mod, Nat.mod_add_mod]
  exact ⟨rfl, rfl⟩

theorem State.launchFails_eq_false_iff (s : State) :
    s.launchFails = false ↔ s.launched = true ∨ isIo s.cfg (s.codeAddr 0) = false := by
  have : s.codeAddr 0 = s.pc.toNat % 2 ^ s.cfg.xlen := rfl
  rw [this, State.launchFails]
  cases s.launched <;> simp

theorem append_parcels (b0 b1 b2 b3 : Byte) : (b3 ++ b2) ++ (b1 ++ b0) = (b3 ++ b2 ++ b1 ++ b0 : BitVec 32) :=
  (BitVec.append_assoc (x₁ := b3 ++ b2) (x₂ := b1) (x₃ := b0)).symm

/-- A byte may be fetched where the region that holds it permits fetches, of 2 bytes (R70, R83). -/
theorem fetchable_iff (c : Config) (x : Nat) :
    fetchable c x = true ↔ ∃ r, regionAt c x = some r ∧ r.fetch = true ∧ 2 ∈ r.widths := by
  unfold fetchable
  cases regionAt c x <;> simp

/-- Settles O5: the two parcels at `pc` are made of its bytes, and each clause is a branch of the fetch. -/
theorem fetchReadsMemoryAtPc : Obligations.FetchReadsMemoryAtPc := by
  refine ⟨?_, fetchable_iff⟩
  intro s a drawn plain b s' may
  obtain ⟨h2, h3⟩ := s.addX_pc_two
  have starts : may → s.launchFails = false := s.launchFails_eq_false_iff.2
  have first : plain 0 → plain 1 → { s with launched := true }.fetchParcel s.pc = some (b 1 ++ b 0, s' 2) :=
    s.fetchParcel_fetched (k := 0) rfl rfl
  have second : plain 2 → plain 3 → (s' 2).fetchParcel (s.cfg.addX s.pc 2#64) = some (b 3 ++ b 2, s' 4) :=
    s.fetchParcel_fetched (k := 2) h2 h3
  have noFirst : fetchable s.cfg (a 0) = false ∨ fetchable s.cfg (a 1) = false →
      { s with launched := true }.fetchParcel s.pc = none :=
    State.fetchParcel_eq_none (s := s) (t := { s with launched := true }) (k := 0) rfl rfl rfl
  have noSecond : fetchable s.cfg (a 2) = false ∨ fetchable s.cfg (a 3) = false →
      (s' 2).fetchParcel (s.cfg.addX s.pc 2#64) = none :=
    State.fetchParcel_eq_none (s := s) (t := s.fetched 2) (k := 2) rfl h2 h3
  refine ⟨fun hm p0 p1 hh => ?_, fun hm p0 p1 p2 p3 hh => ?_, ?_, fun hm p0 p1 hh hf => ?_⟩
  · exact State.fetch_of_half (starts hm) (first p0 p1) hh
  · rw [State.fetch_of_word (starts hm) (first p0 p1) hh (second p2 p3), append_parcels]
  · rw [← or_assoc]
    rintro (hf | hm)
    · exact State.fetch_of_first_unfetchable (noFirst hf)
    · exact State.fetch_of_launchFails (by simpa using mt s.launchFails_eq_false_iff.1 hm)
  · rw [State.fetch_of_second_unfetchable (starts hm) (first p0 p1) hh (noSecond hf), Config.addX]
    rfl

/-! ### The candidates of a fetch -/

/-- An older candidate is recorded for its address. -/
theorem State.mem_stale_of_olderBytes {s : State} {a : Nat} {b : Byte} (h : b ∈ s.olderBytes a) : (a, b) ∈ s.stale := by
  obtain ⟨⟨_, b⟩, hc, rfl⟩ := List.mem_map.1 (List.mem_filter.1 h).1
  obtain ⟨hc, ha⟩ := List.mem_filter.1 hc
  rwa [← beq_iff_eq.1 ha]

/-- What is fetched from main memory: the byte of memory where nothing older is recorded, and else one of the
candidates, at a draw of its own. -/
theorem State.fetchByte_main (s : State) {a : Nat} (h : isIo s.cfg a = false) :
    (s.olderBytes a = [] ∧ s.fetchByte a = (Memory.read s.memory a, s)) ∨
      ∃ b ∈ Memory.read s.memory a :: s.olderBytes a, s.fetchByte a = (b, { s with draws := s.draws + 1 }) := by
  unfold State.fetchByte
  rw [if_neg (by simp [h])]
  cases ho : s.olderBytes a with
  | nil => exact .inl ⟨rfl, rfl⟩
  | cons b bs =>
    refine .inr ⟨_, ?_, rfl⟩
    have hlt : Config.fetchChoice s.draws % (bs.length + 2) < (Memory.read s.memory a :: b :: bs).length :=
      Nat.mod_lt _ (by omega)
    rw [List.getElem?_eq_getElem hlt]
    exact List.getElem_mem hlt

/-- Settles O6: a byte fetched from main memory is picked from its candidates, and a store only adds to them. -/
theorem fetchedByteIsCandidate : Obligations.FetchedByteIsCandidate := by
  refine ⟨fun s a h => ?_, fun s a h ho => ?_, fun s s1 p hl hp hh => State.fetch_of_second_unfetchable hl hp hh,
    fun s ea n v w a => ?_⟩
  · rcases s.fetchByte_main h with ⟨-, he⟩ | ⟨b, hb, he⟩ <;> rw [he]
    · exact .inl rfl
    · exact (List.mem_cons.1 hb).imp id State.mem_stale_of_olderBytes
  · rcases s.fetchByte_main h with ⟨hn, -⟩ | ⟨b, -, he⟩
    · exact absurd hn ho
    · rw [he]
  · rw [State.memWrite_stale, State.memWrite_memory]
    exact ⟨fun _ => s.stale_writeCells _, s.stale_of_changed _⟩

/-! ### A step of a running hart -/

section Step

variable {s s' : State} (hr : s.status = .running)

include hr

theorem step_of_code (ha : s.cfg.aligned s.pc = true) {k : Code} (hf : s.fetch = .code k s') {i : Instr}
    (hd : decode s.cfg k = .ok i) : step s = followLoop i s' (exec i s') := by
  simp only [step, hr, ha, if_true, hf, hd]

theorem step_of_reject (ha : s.cfg.aligned s.pc = true) {k : Code} (hf : s.fetch = .code k s') {e : Reject}
    (hd : decode s.cfg k = .error e) : step s = .next (s'.trap .illegalInstruction k.bits k.ilen) := by
  simp only [step, hr, ha, if_true, hf, hd]; rfl

theorem step_of_fetch_fault (ha : s.cfg.aligned s.pc = true) {p : Word} (hf : s.fetch = .fault p s') :
    step s = .next (s'.trap .instructionAccessFault p 4) := by
  simp only [step, hr, ha, if_true, hf]; rfl

theorem step_of_misaligned (ha : s.cfg.aligned s.pc = false) :
    step s = if s.launched then .fault .misalignedPc else .refused .misalignedResetPc := by
  simp only [step, hr, ha, Bool.false_eq_true, if_false]

end Step

/-- A fetch leaves the configuration. -/
theorem State.fetch_code_cfg {s s' : State} {k : Code} (h : s.fetch = .code k s') : s'.cfg = s.cfg := by
  rcases s.fetch_cases with ⟨_, _, hf⟩ | ⟨_, _, hf⟩ <;> rw [hf] at h <;> cases h
  rfl

theorem followLoop_oracle_running (i : Instr) {s t : State} (h : s.cfg.scMayFail = .oracle) (ht : t.status = .running) :
    followLoop i s (.next t) = .next { t with loop := s.loopAfter i t.pc, draws := t.draws + 1 } :=
  if_pos ⟨h, ht⟩

theorem followLoop_trapped (i : Instr) (s : State) {t : State} (ht : t.status ≠ .running) :
    followLoop i s (.next t) = .next t :=
  if_neg fun h => ht h.2

/-- Settles O4: each clause is a branch of `step`, and what a step adds is what `followLoop` does. -/
theorem stepRunsDecodedInstruction : Obligations.StepRunsDecodedInstruction := by
  refine ⟨fun s s' k i hr ha hf hd => ?_, fun s s' k e hr ha hf hd => step_of_reject hr ha hf hd,
    fun s s' p hr ha hf => step_of_fetch_fault hr ha hf, fun s hr ha => step_of_misaligned hr ha⟩
  rw [step_of_code hr ha hf hd, ← State.fetch_code_cfg hf]
  refine ⟨rfl, fun hn => followLoop_never i hn _, fun ho t ht => ?_⟩
  rw [ht]
  exact ⟨followLoop_oracle_running i ho, followLoop_trapped i s'⟩

end Sys2Proof.Machine
end

section
/-! PROOFS. The formats of the encodings: a code has a format's layout exactly where its fields are the operands put in
(30_encoding.md R160 to R168, R185; 49_c.md R538). -/

namespace Sys2Proof

/-! ### Bit strings put together -/

/-- Bits of a word are two strings put together where each string is its own part of the bits. -/
theorem extractLsb'_eq_append_iff {m n k : Nat} {a : BitVec m} {b : BitVec n} {w : BitVec k} {s : Nat} :
    w.extractLsb' s (m + n) = a ++ b ↔ w.extractLsb' (s + n) m = a ∧ w.extractLsb' s n = b := by
  constructor
  · intro h
    constructor
    · rw [← BitVec.extractLsb'_append_eq_left (a := a) (b := b), ← h]
      ext i hi
      simp [Nat.add_assoc, Nat.add_lt_add_left hi n, Nat.add_comm m n]
    · rw [← BitVec.extractLsb'_append_eq_right (a := a) (b := b), ← h]
      ext i hi
      simp [Nat.lt_add_left m hi]
  · rintro ⟨rfl, rfl⟩
    exact (BitVec.extractLsb'_append_extractLsb'_eq_extractLsb' rfl).symm

theorem append_eq_iff {m n : Nat} {a : BitVec m} {b : BitVec n} {w : BitVec (m + n)} :
    a ++ b = w ↔ w.extractLsb' n m = a ∧ w.extractLsb' 0 n = b := by
  rw [eq_comm, ← BitVec.extractLsb'_eq_self (x := w), extractLsb'_eq_append_iff, BitVec.extractLsb'_eq_self,
    Nat.zero_add]

/-- Bits of a word are a string where the upper and the lower part of the string are theirs. -/
theorem extractLsb'_eq_iff {m n k : Nat} {f : BitVec (m + n)} {w : BitVec k} {s : Nat} : w.extractLsb' s (m + n) = f ↔
    w.extractLsb' (s + n) m = f.extractLsb' n m ∧ w.extractLsb' s n = f.extractLsb' 0 n := by
  rw [← extractLsb'_eq_append_iff, append_eq_iff.2 ⟨rfl, rfl⟩]

theorem eq_ofNat_of_toNat_eq {n m : Nat} {v : BitVec n} (h : v.toNat = m) : v = BitVec.ofNat n m := by
  rw [← h, BitVec.ofNat_toNat, BitVec.setWidth_eq]

/-! ### The formats of a 32-bit word -/

section Words

variable {w : BitVec 32} {rd rs1 rs2 rs3 : Reg} {f3 : BitVec 3} {f7 op : BitVec 7}

theorem encR_eq_word_iff : encR f7 rs2 rs1 f3 rd op = .word w ↔
    fFunct7 w = f7 ∧ fRs2 w = rs2 ∧ fRs1 w = rs1 ∧ fFunct3 w = f3 ∧ fRd w = rd ∧ fOpcode w = op := by
  rw [encR, Code.word.injEq, append_eq_iff]
  repeat rw [extractLsb'_eq_append_iff]
  simp only [and_assoc]
  rfl

/-- The R format with funct7 as funct5 and fmt, for OP-FP (46_f.md R400). -/
theorem encR_eq_word_iff_fmt : encR f7 rs2 rs1 f3 rd op = .word w ↔
    fFunct5 w = f7.extractLsb' 2 5 ∧ fFmt w = f7.extractLsb' 0 2 ∧ fRs2 w = rs2 ∧ fRs1 w = rs1 ∧ fFunct3 w = f3 ∧
      fRd w = rd ∧ fOpcode w = op := by
  have h7 : fFunct7 w = f7 ↔ fFunct5 w = f7.extractLsb' 2 5 ∧ fFmt w = f7.extractLsb' 0 2 :=
    extractLsb'_eq_iff (m := 5) (n := 2)
  rw [encR_eq_word_iff, h7, and_assoc]

theorem encI_eq_word_iff {imm : BitVec 12} : encI imm rs1 f3 rd op = .word w ↔
    fImmI w = imm ∧ fRs1 w = rs1 ∧ fFunct3 w = f3 ∧ fRd w = rd ∧ fOpcode w = op := by
  rw [encI, Code.word.injEq, append_eq_iff]
  repeat rw [extractLsb'_eq_append_iff]
  simp only [and_assoc]
  rfl

theorem encShift_eq_word_iff {f6 shamt : BitVec 6} : encShift f6 shamt rs1 f3 rd = .word w ↔
    fFunct6 w = f6 ∧ fShamt6 w = shamt ∧ fRs1 w = rs1 ∧ fFunct3 w = f3 ∧ fRd w = rd ∧ fOpcode w = 0b0010011#7 := by
  rw [encShift, Code.word.injEq, append_eq_iff]
  repeat rw [extractLsb'_eq_append_iff]
  simp only [and_assoc]
  rfl

theorem encS_eq_word_iff {imm : BitVec 12} : encS imm rs2 rs1 f3 op = .word w ↔
    fImmS w = imm ∧ fRs2 w = rs2 ∧ fRs1 w = rs1 ∧ fFunct3 w = f3 ∧ fOpcode w = op := by
  rw [encS, Code.word.injEq, append_eq_iff, fImmS, append_eq_iff]
  repeat rw [extractLsb'_eq_append_iff]
  simp only [fRs2, fRs1, fFunct3, fOpcode, Nat.reduceAdd]
  grind

theorem encB_eq_word_iff {offset : BitVec 12} : encB offset rs2 rs1 f3 = .word w ↔
    fImmB w = offset ∧ fRs2 w = rs2 ∧ fRs1 w = rs1 ∧ fFunct3 w = f3 ∧ fOpcode w = 0b1100011#7 := by
  rw [encB, Code.word.injEq, append_eq_iff, fImmB, append_eq_iff]
  repeat rw [extractLsb'_eq_append_iff]
  simp only [fRs2, fRs1, fFunct3, fOpcode, Nat.reduceAdd]
  grind

theorem encU_eq_word_iff {imm : BitVec 20} : encU imm rd op = .word w ↔
    fImmU w = imm ∧ fRd w = rd ∧ fOpcode w = op := by
  rw [encU, Code.word.injEq, append_eq_iff]
  repeat rw [extractLsb'_eq_append_iff]
  simp only [and_assoc]
  rfl

theorem encJ_eq_word_iff {offset : BitVec 20} : encJ offset rd = .word w ↔
    fImmJ w = offset ∧ fRd w = rd ∧ fOpcode w = 0b1101111#7 := by
  rw [encJ, Code.word.injEq, append_eq_iff, fImmJ, append_eq_iff]
  repeat rw [extractLsb'_eq_append_iff]
  simp only [fRd, fOpcode, Nat.reduceAdd]
  grind

theorem encAmo_eq_word_iff {f5 : BitVec 5} {aq rl : BitVec 1} : encAmo f5 aq rl rs2 rs1 f3 rd = .word w ↔
    fFunct5 w = f5 ∧ fAq w = aq ∧ fRl w = rl ∧ fRs2 w = rs2 ∧ fRs1 w = rs1 ∧ fFunct3 w = f3 ∧ fRd w = rd ∧
      fOpcode w = 0b0101111#7 := by
  rw [encAmo, Code.word.injEq, append_eq_iff]
  repeat rw [extractLsb'_eq_append_iff]
  simp only [and_assoc]
  rfl

theorem encR4_eq_word_iff {fmt : BitVec 2} : encR4 rs3 fmt rs2 rs1 f3 rd op = .word w ↔
    fFunct5 w = rs3 ∧ fFmt w = fmt ∧ fRs2 w = rs2 ∧ fRs1 w = rs1 ∧ fFunct3 w = f3 ∧ fRd w = rd ∧ fOpcode w = op := by
  rw [encR4, Code.word.injEq, append_eq_iff]
  repeat rw [extractLsb'_eq_append_iff]
  simp only [and_assoc]
  rfl

theorem encFence_eq_word_iff {fm pred succ : BitVec 4} : encFence fm pred succ rs1 rd = .word w ↔
    w.extractLsb' 28 4 = fm ∧ w.extractLsb' 24 4 = pred ∧ w.extractLsb' 20 4 = succ ∧ fRs1 w = rs1 ∧
      fFunct3 w = 0b000#3 ∧ fRd w = rd ∧ fOpcode w = 0b0001111#7 := by
  rw [encFence, Code.word.injEq, append_eq_iff]
  repeat rw [extractLsb'_eq_append_iff]
  simp only [and_assoc]
  rfl

end Words

/-! ### The formats of a 16-bit parcel -/

section Halves

variable {h : BitVec 16} {rd rs2 : Reg} {crd crs1 crs2 : CReg} {f3 : BitVec 3} {q : BitVec 2}

theorem encCR_eq_half_iff {f4 : BitVec 4} : encCR f4 rd rs2 = .half h ↔
    hFunct3 h = f4.extractLsb' 1 3 ∧ hBit12 h = f4.extractLsb' 0 1 ∧ hRd h = rd ∧ hRs2 h = rs2 ∧
      h.extractLsb' 0 2 = 0b10#2 := by
  have h4 : h.extractLsb' 12 4 = f4 ↔ hFunct3 h = f4.extractLsb' 1 3 ∧ hBit12 h = f4.extractLsb' 0 1 :=
    extractLsb'_eq_iff (m := 3) (n := 1)
  rw [encCR, Code.half.injEq, append_eq_iff]
  repeat rw [extractLsb'_eq_append_iff]
  simp only [h4, and_assoc, Nat.reduceAdd]
  rfl

theorem encCI_eq_half_iff {imm : BitVec 6} : encCI f3 imm rd q = .half h ↔
    hFunct3 h = f3 ∧ hImm6 h = imm ∧ hRd h = rd ∧ h.extractLsb' 0 2 = q := by
  rw [encCI, Code.half.injEq, append_eq_iff, hImm6, append_eq_iff]
  repeat rw [extractLsb'_eq_append_iff]
  simp only [hFunct3, hRd, Nat.reduceAdd]
  grind

theorem encCSS_eq_half_iff {field : BitVec 6} : encCSS f3 field rs2 = .half h ↔
    hFunct3 h = f3 ∧ h.extractLsb' 7 6 = field ∧ hRs2 h = rs2 ∧ h.extractLsb' 0 2 = 0b10#2 := by
  rw [encCSS, Code.half.injEq, append_eq_iff]
  repeat rw [extractLsb'_eq_append_iff]
  simp only [and_assoc]
  rfl

theorem encCIW_eq_half_iff {imm : BitVec 8} : encCIW imm crd = .half h ↔
    hFunct3 h = 0b000#3 ∧ hImm4spn h = imm ∧ hRdc h = crd ∧ h.extractLsb' 0 2 = 0b00#2 := by
  rw [encCIW, Code.half.injEq, append_eq_iff, hImm4spn, append_eq_iff]
  repeat rw [extractLsb'_eq_append_iff]
  simp only [hFunct3, hRdc, Nat.reduceAdd]
  grind

theorem encCW_eq_half_iff {imm : BitVec 5} : encCW f3 imm crs1 crd = .half h ↔
    hFunct3 h = f3 ∧ hOffW h = imm ∧ hRs1c h = crs1 ∧ hRdc h = crd ∧ h.extractLsb' 0 2 = 0b00#2 := by
  rw [encCW, Code.half.injEq, append_eq_iff, hOffW, append_eq_iff]
  repeat rw [extractLsb'_eq_append_iff]
  simp only [hFunct3, hRs1c, hRdc, Nat.reduceAdd]
  grind

theorem encCD_eq_half_iff {imm : BitVec 5} : encCD f3 imm crs1 crd = .half h ↔
    hFunct3 h = f3 ∧ hOffD h = imm ∧ hRs1c h = crs1 ∧ hRdc h = crd ∧ h.extractLsb' 0 2 = 0b00#2 := by
  rw [encCD, Code.half.injEq, append_eq_iff, hOffD, append_eq_iff]
  repeat rw [extractLsb'_eq_append_iff]
  simp only [hFunct3, hRs1c, hRdc, Nat.reduceAdd]
  grind

theorem encCA_eq_half_iff {f6 : BitVec 6} {f2 : BitVec 2} : encCA f6 crd f2 crs2 = .half h ↔
    hFunct3 h = f6.extractLsb' 3 3 ∧ hBit12 h = f6.extractLsb' 2 1 ∧ h.extractLsb' 10 2 = f6.extractLsb' 0 2 ∧
      hRs1c h = crd ∧ h.extractLsb' 5 2 = f2 ∧ hRdc h = crs2 ∧ h.extractLsb' 0 2 = 0b01#2 := by
  rw [encCA, Code.half.injEq, append_eq_iff]
  repeat rw [extractLsb'_eq_append_iff]
  rw [extractLsb'_eq_iff (m := 3) (n := 3), extractLsb'_eq_iff (m := 1) (n := 2) (s := 10)]
  simp only [BitVec.extractLsb'_extractLsb'_of_le, and_assoc, Nat.reduceAdd, Nat.reduceLeDiff]
  rfl

theorem encCBAlu_eq_half_iff {f2 : BitVec 2} {imm : BitVec 6} : encCBAlu f2 imm crd = .half h ↔
    hFunct3 h = 0b100#3 ∧ h.extractLsb' 10 2 = f2 ∧ hImm6 h = imm ∧ hRs1c h = crd ∧ h.extractLsb' 0 2 = 0b01#2 := by
  rw [encCBAlu, Code.half.injEq, append_eq_iff, hImm6, append_eq_iff]
  repeat rw [extractLsb'_eq_append_iff]
  simp only [hFunct3, hRs1c, Nat.reduceAdd]
  grind

theorem encCB_eq_half_iff {offset : BitVec 8} : encCB f3 offset crs1 = .half h ↔
    hFunct3 h = f3 ∧ hOffB h = offset ∧ hRs1c h = crs1 ∧ h.extractLsb' 0 2 = 0b01#2 := by
  rw [encCB, Code.half.injEq, append_eq_iff, hOffB, append_eq_iff]
  repeat rw [extractLsb'_eq_append_iff]
  simp only [hFunct3, hRs1c, Nat.reduceAdd]
  grind

theorem encCJ_eq_half_iff {offset : BitVec 11} : encCJ f3 offset = .half h ↔
    hFunct3 h = f3 ∧ hOffJ h = offset ∧ h.extractLsb' 0 2 = 0b01#2 := by
  rw [encCJ, Code.half.injEq, append_eq_iff, hOffJ, append_eq_iff]
  repeat rw [extractLsb'_eq_append_iff]
  simp only [hFunct3, Nat.reduceAdd]
  grind

end Halves
end Sys2Proof
end

section
/-! PROOFS. The 32-bit table: a word decodes to the instruction whose code it is (30_encoding.md R170, R178). -/

namespace Sys2Proof

variable {w : BitVec 32} {i : Instr}

/-! ### A code decodes to its instruction -/

/-- The code of an instruction whose fields are legal decodes to it: by its format, each field of the code is the
operand or the constant put there, the opcode selects the decoder of its row, and the other constants select the row. -/
theorem decodeWord_of_encode {c : Config} (hl : i.fieldsLegal c = true) (h : encode i = .word w) :
    decodeWord w = some i := by
  cases i with
  | lui | auipc =>
    obtain ⟨rfl, rfl, hop⟩ := encU_eq_word_iff.1 h
    simp [decodeWord, hop]
  | jal =>
    obtain ⟨rfl, rfl, hop⟩ := encJ_eq_word_iff.1 h
    simp [decodeWord, hop]
  | beq | bne | blt | bge | bltu | bgeu =>
    obtain ⟨rfl, rfl, rfl, h3, hop⟩ := encB_eq_word_iff.1 h
    simp [decodeWord, hop, decodeBranch, h3]
  | jalr | lb | lh | lw | lbu | lhu | lwu | ld | flw | fld | flq | fenceI | csrrw | csrrs | csrrc | csrrwi | csrrsi
  | csrrci | addi | slti | sltiu | xori | ori | andi | addiw =>
    obtain ⟨rfl, rfl, h3, rfl, hop⟩ := encI_eq_word_iff.1 h
    simp [decodeWord, hop, decodeLoad, decodeLoadFp, decodeMiscMem, decodeSystem, decodeOpImm, decodeOpImm32, h3]
  | ecall | ebreak =>
    obtain ⟨himm, h1, h3, hd, hop⟩ := encI_eq_word_iff.1 h
    simp [decodeWord, hop, decodeSystem, h3, h1, hd, himm]
  | sb | sh | sw | sd | fsw | fsd | fsq =>
    obtain ⟨rfl, rfl, rfl, h3, hop⟩ := encS_eq_word_iff.1 h
    simp [decodeWord, hop, decodeStore, decodeStoreFp, h3]
  | fence =>
    obtain ⟨rfl, rfl, rfl, rfl, h3, rfl, hop⟩ := encFence_eq_word_iff.1 h
    simp only [Instr.fieldsLegal, Bool.and_eq_true, Bool.not_eq_true'] at hl
    simp [decodeWord, hop, decodeMiscMem, h3, hl]
  | fenceTso | pause =>
    obtain ⟨hfm, hpred, hsucc, h1, h3, hd, hop⟩ := encFence_eq_word_iff.1 h
    simp [decodeWord, hop, decodeMiscMem, h3, hfm, hpred, hsucc, h1, hd, isTsoPoint, isPausePoint]
  | slli | srli | srai =>
    obtain ⟨h6, rfl, rfl, h3, rfl, hop⟩ := encShift_eq_word_iff.1 h
    simp [decodeWord, hop, decodeOpImm, h3, h6]
  | add | sub | sll | slt | sltu | xor | srl | sra | or | and | mul | mulh | mulhsu | mulhu | div | divu | rem | remu
  | addw | subw | sllw | srlw | sraw | mulw | divw | divuw | remw | remuw | slliw | srliw | sraiw =>
    obtain ⟨h7, rfl, rfl, h3, rfl, hop⟩ := encR_eq_word_iff.1 h
    simp [decodeWord, hop, decodeOp, decodeOp32, decodeOpImm32, h7, h3]
  | lrW | lrD =>
    obtain ⟨h5, rfl, rfl, h2, rfl, h3, rfl, hop⟩ := encAmo_eq_word_iff.1 h
    simp [decodeWord, hop, decodeAmo, h5, h2, byWidth, h3]
  | scW | amoswapW | amoaddW | amoxorW | amoandW | amoorW | amominW | amomaxW | amominuW | amomaxuW | scD | amoswapD
  | amoaddD | amoxorD | amoandD | amoorD | amominD | amomaxD | amominuD | amomaxuD =>
    obtain ⟨h5, rfl, rfl, rfl, rfl, h3, rfl, hop⟩ := encAmo_eq_word_iff.1 h
    simp [decodeWord, hop, decodeAmo, h5, byWidth, h3]
  | fmaddS | fmaddD | fmaddQ | fmsubS | fmsubD | fmsubQ | fnmsubS | fnmsubD | fnmsubQ | fnmaddS | fnmaddD | fnmaddQ =>
    obtain ⟨rfl, hf, rfl, rfl, rfl, rfl, hop⟩ := encR4_eq_word_iff.1 h
    simp [decodeWord, hop, decodeFmadd, decodeFmsub, decodeFnmsub, decodeFnmadd, byFmt, hf]
  | faddS | fsubS | fmulS | fdivS | faddD | fsubD | fmulD | fdivD | faddQ | fsubQ | fmulQ | fdivQ =>
    obtain ⟨h5, hf, rfl, rfl, rfl, rfl, hop⟩ := encR_eq_word_iff_fmt.1 h
    simp [decodeWord, hop, decodeOpFp, h5, byFmt, hf]
  | fsgnjS | fsgnjnS | fsgnjxS | fminS | fmaxS | feqS | fltS | fleS | fsgnjD | fsgnjnD | fsgnjxD | fminD | fmaxD | feqD
  | fltD | fleD | fsgnjQ | fsgnjnQ | fsgnjxQ | fminQ | fmaxQ | feqQ | fltQ | fleQ =>
    obtain ⟨h5, hf, rfl, rfl, h3, rfl, hop⟩ := encR_eq_word_iff_fmt.1 h
    simp [decodeWord, hop, decodeOpFp, h5, h3, byFmt, hf]
  | fsqrtS | fcvtWS | fcvtWUS | fcvtLS | fcvtLUS | fcvtSW | fcvtSWU | fcvtSL | fcvtSLU | fsqrtD | fcvtWD | fcvtWUD
  | fcvtLD | fcvtLUD | fcvtDW | fcvtDWU | fcvtDL | fcvtDLU | fsqrtQ | fcvtWQ | fcvtWUQ | fcvtLQ | fcvtLUQ | fcvtQW
  | fcvtQWU | fcvtQL | fcvtQLU | fcvtSD | fcvtSQ | fcvtDS | fcvtDQ | fcvtQS | fcvtQD =>
    obtain ⟨h5, hf, h2, rfl, rfl, rfl, hop⟩ := encR_eq_word_iff_fmt.1 h
    simp [decodeWord, hop, decodeOpFp, h5, decodeFcvtFormat, h2, byFmt, hf]
  | fmvXW | fmvWX | fmvXD | fmvDX | fclassS | fclassD | fclassQ =>
    obtain ⟨h5, hf, h2, rfl, h3, rfl, hop⟩ := encR_eq_word_iff_fmt.1 h
    simp [decodeWord, hop, decodeOpFp, h5, h2, h3, hf]
  | _ => cases h

/-! ### A word that decodes is the code of its instruction -/

theorem encode_of_decodeBranch (hop : fOpcode w = 0b1100011#7) (h : decodeBranch w = some i) : encode i = .word w := by
  unfold decodeBranch at h
  split at h <;> cases h
  all_goals exact encB_eq_word_iff.2 ⟨rfl, rfl, rfl, eq_ofNat_of_toNat_eq ‹_›, hop⟩

theorem encode_of_decodeLoad (hop : fOpcode w = 0b0000011#7) (h : decodeLoad w = some i) : encode i = .word w := by
  unfold decodeLoad at h
  split at h <;> cases h
  all_goals exact encI_eq_word_iff.2 ⟨rfl, rfl, eq_ofNat_of_toNat_eq ‹_›, rfl, hop⟩

theorem encode_of_decodeLoadFp (hop : fOpcode w = 0b0000111#7) (h : decodeLoadFp w = some i) : encode i = .word w := by
  unfold decodeLoadFp at h
  split at h <;> cases h
  all_goals exact encI_eq_word_iff.2 ⟨rfl, rfl, eq_ofNat_of_toNat_eq ‹_›, rfl, hop⟩

theorem encode_of_decodeStore (hop : fOpcode w = 0b0100011#7) (h : decodeStore w = some i) : encode i = .word w := by
  unfold decodeStore at h
  split at h <;> cases h
  all_goals exact encS_eq_word_iff.2 ⟨rfl, rfl, rfl, eq_ofNat_of_toNat_eq ‹_›, hop⟩

theorem encode_of_decodeStoreFp (hop : fOpcode w = 0b0100111#7) (h : decodeStoreFp w = some i) :
    encode i = .word w := by
  unfold decodeStoreFp at h
  split at h <;> cases h
  all_goals exact encS_eq_word_iff.2 ⟨rfl, rfl, rfl, eq_ofNat_of_toNat_eq ‹_›, hop⟩

theorem isTsoPoint_iff {fm pred succ : BitVec 4} {rs1 rd : Reg} : isTsoPoint fm pred succ rs1 rd = true ↔
    fm = 0b1000#4 ∧ pred = 0b0011#4 ∧ succ = 0b0011#4 ∧ rs1 = 0#5 ∧ rd = 0#5 := by
  simp [isTsoPoint, and_assoc]

theorem isPausePoint_iff {fm pred succ : BitVec 4} {rs1 rd : Reg} : isPausePoint fm pred succ rs1 rd = true ↔
    fm = 0b0000#4 ∧ pred = 0b0001#4 ∧ succ = 0b0000#4 ∧ rs1 = 0#5 ∧ rd = 0#5 := by
  simp [isPausePoint, and_assoc]

theorem encode_of_decodeMiscMem (hop : fOpcode w = 0b0001111#7) (h : decodeMiscMem w = some i) :
    encode i = .word w := by
  unfold decodeMiscMem at h
  split at h
  next h3 =>
    have h3 : fFunct3 w = 0b000#3 := eq_ofNat_of_toNat_eq h3
    split_ifs at h with ht hp <;> cases h
    · obtain ⟨hfm, hpred, hsucc, h1, hd⟩ := isTsoPoint_iff.1 ht
      exact encFence_eq_word_iff.2 ⟨hfm, hpred, hsucc, h1, h3, hd, hop⟩
    · obtain ⟨hfm, hpred, hsucc, h1, hd⟩ := isPausePoint_iff.1 hp
      exact encFence_eq_word_iff.2 ⟨hfm, hpred, hsucc, h1, h3, hd, hop⟩
    · exact encFence_eq_word_iff.2 ⟨rfl, rfl, rfl, rfl, h3, rfl, hop⟩
  next h3 => cases h; exact encI_eq_word_iff.2 ⟨rfl, rfl, eq_ofNat_of_toNat_eq h3, rfl, hop⟩
  next => cases h

theorem encode_of_decodeOpImm (hop : fOpcode w = 0b0010011#7) (h : decodeOpImm w = some i) : encode i = .word w := by
  have hlt := (fFunct3 w).isLt
  unfold decodeOpImm at h
  split at h
  case h_2 h3 =>
    split_ifs at h with h6
    cases h
    exact encShift_eq_word_iff.2 ⟨h6, rfl, rfl, eq_ofNat_of_toNat_eq h3, rfl, hop⟩
  case h_6 h3 =>
    split at h <;> cases h
    all_goals exact encShift_eq_word_iff.2 ⟨eq_ofNat_of_toNat_eq ‹_›, rfl, rfl, eq_ofNat_of_toNat_eq h3, rfl, hop⟩
  case h_8 =>
    have h3 : (fFunct3 w).toNat = 7 := by grind
    cases h
    exact encI_eq_word_iff.2 ⟨rfl, rfl, eq_ofNat_of_toNat_eq h3, rfl, hop⟩
  case h_1 h3 | h_3 h3 | h_4 h3 | h_5 h3 | h_7 h3 =>
    cases h
    exact encI_eq_word_iff.2 ⟨rfl, rfl, eq_ofNat_of_toNat_eq h3, rfl, hop⟩

theorem encode_of_decodeOpImm32 (hop : fOpcode w = 0b0011011#7) (h : decodeOpImm32 w = some i) :
    encode i = .word w := by
  unfold decodeOpImm32 at h
  split at h
  next h3 => cases h; exact encI_eq_word_iff.2 ⟨rfl, rfl, eq_ofNat_of_toNat_eq h3, rfl, hop⟩
  next h3 =>
    split_ifs at h with h7
    cases h
    exact encR_eq_word_iff.2 ⟨h7, rfl, rfl, eq_ofNat_of_toNat_eq h3, rfl, hop⟩
  next h3 =>
    split at h <;> cases h
    all_goals exact encR_eq_word_iff.2 ⟨eq_ofNat_of_toNat_eq ‹_›, rfl, rfl, eq_ofNat_of_toNat_eq h3, rfl, hop⟩
  next => cases h

theorem encode_of_decodeOp (hop : fOpcode w = 0b0110011#7) (h : decodeOp w = some i) : encode i = .word w := by
  unfold decodeOp at h
  split at h <;> cases h
  all_goals
    rename_i h7 h3
    exact encR_eq_word_iff.2 ⟨eq_ofNat_of_toNat_eq h7, rfl, rfl, eq_ofNat_of_toNat_eq h3, rfl, hop⟩

theorem encode_of_decodeOp32 (hop : fOpcode w = 0b0111011#7) (h : decodeOp32 w = some i) : encode i = .word w := by
  unfold decodeOp32 at h
  split at h <;> cases h
  all_goals
    rename_i h7 h3
    exact encR_eq_word_iff.2 ⟨eq_ofNat_of_toNat_eq h7, rfl, rfl, eq_ofNat_of_toNat_eq h3, rfl, hop⟩

theorem encode_of_decodeSystem (hop : fOpcode w = 0b1110011#7) (h : decodeSystem w = some i) : encode i = .word w := by
  unfold decodeSystem at h
  split at h
  case h_1 h3 =>
    split_ifs at h with hr
    split at h <;> cases h
    all_goals exact encI_eq_word_iff.2 ⟨eq_ofNat_of_toNat_eq ‹_›, hr.1, eq_ofNat_of_toNat_eq h3, hr.2, hop⟩
  case h_8 => cases h
  all_goals
    cases h
    exact encI_eq_word_iff.2 ⟨rfl, rfl, eq_ofNat_of_toNat_eq ‹_›, rfl, hop⟩

/-! The rows of the AMO table come in two widths, and those of the fused opcodes and of OP-FP in three formats. A lemma
for each takes the codes of all the forms, which say what the fields of the row are. -/

theorem byWidth_eq_some {f3 : BitVec 3} {word double : Instr} (h : byWidth f3 word double = some i) :
    (f3.toNat = 2 ∧ word = i) ∨ (f3.toNat = 3 ∧ double = i) := by
  unfold byWidth at h
  split at h <;> cases h
  · exact .inl ⟨‹_›, rfl⟩
  · exact .inr ⟨‹_›, rfl⟩

theorem byFmt_eq_some {fmt : BitVec 2} {s d q : Instr} (h : byFmt fmt s d q = some i) :
    (fmt.toNat = 0 ∧ s = i) ∨ (fmt.toNat = 1 ∧ d = i) ∨ (fmt.toNat = 3 ∧ q = i) := by
  unfold byFmt at h
  split at h <;> cases h
  · exact .inl ⟨‹_›, rfl⟩
  · exact .inr (.inl ⟨‹_›, rfl⟩)
  · exact .inr (.inr ⟨‹_›, rfl⟩)

/-- A row of the AMO table (44_a.md R330). -/
theorem encode_of_byWidth {f5 : Nat} {rs2 : Reg} {word double : Instr} (hop : fOpcode w = 0b0101111#7)
    (h5 : (fFunct5 w).toNat = f5) (h : byWidth (fFunct3 w) word double = some i)
    (hw : encode word = encAmo (BitVec.ofNat 5 f5) (fAq w) (fRl w) rs2 (fRs1 w) 0b010#3 (fRd w))
    (hd : encode double = encAmo (BitVec.ofNat 5 f5) (fAq w) (fRl w) rs2 (fRs1 w) 0b011#3 (fRd w))
    (h2 : fRs2 w = rs2) : encode i = .word w := by
  have h5 := eq_ofNat_of_toNat_eq h5
  obtain ⟨h3, rfl⟩ | ⟨h3, rfl⟩ := byWidth_eq_some h
  · exact hw.trans (encAmo_eq_word_iff.2 ⟨h5, rfl, rfl, h2, rfl, eq_ofNat_of_toNat_eq h3, rfl, hop⟩)
  · exact hd.trans (encAmo_eq_word_iff.2 ⟨h5, rfl, rfl, h2, rfl, eq_ofNat_of_toNat_eq h3, rfl, hop⟩)

theorem encode_of_decodeAmo (hop : fOpcode w = 0b0101111#7) (h : decodeAmo w = some i) : encode i = .word w := by
  unfold decodeAmo at h
  split at h
  case h_1 h5 =>
    split_ifs at h with h2
    exact encode_of_byWidth hop h5 h rfl rfl h2
  case h_12 => cases h
  all_goals exact encode_of_byWidth hop ‹_› h rfl rfl rfl

/-- A row of a fused opcode, whose upper bits hold rs3 (46_f.md R419). -/
theorem encode_of_byFmt_fused {op : BitVec 7} {s d q : Instr} (hop : fOpcode w = op)
    (h : byFmt (fFmt w) s d q = some i)
    (hs : encode s = encR4 (fFunct5 w) 0b00#2 (fRs2 w) (fRs1 w) (fFunct3 w) (fRd w) op)
    (hd : encode d = encR4 (fFunct5 w) 0b01#2 (fRs2 w) (fRs1 w) (fFunct3 w) (fRd w) op)
    (hq : encode q = encR4 (fFunct5 w) 0b11#2 (fRs2 w) (fRs1 w) (fFunct3 w) (fRd w) op) : encode i = .word w := by
  have code {fmt : Nat} (hf : (fFmt w).toNat = fmt) :
      encR4 (fFunct5 w) (BitVec.ofNat 2 fmt) (fRs2 w) (fRs1 w) (fFunct3 w) (fRd w) op = .word w :=
    encR4_eq_word_iff.2 ⟨rfl, eq_ofNat_of_toNat_eq hf, rfl, rfl, rfl, rfl, hop⟩
  obtain ⟨hf, rfl⟩ | ⟨hf, rfl⟩ | ⟨hf, rfl⟩ := byFmt_eq_some h
  · exact hs.trans (code hf)
  · exact hd.trans (code hf)
  · exact hq.trans (code hf)

/-- The code of an OP-FP word, where funct5 and fmt make up funct7. -/
theorem encR_opFp {f5 fmt : Nat} {rs2 : Reg} {f3 : BitVec 3} (hop : fOpcode w = 0b1010011#7)
    (h5 : (fFunct5 w).toNat = f5) (hf : (fFmt w).toNat = fmt) (h2 : fRs2 w = rs2) (h3 : fFunct3 w = f3) :
    encR (BitVec.ofNat 7 (4 * f5 + fmt)) rs2 (fRs1 w) f3 (fRd w) 0b1010011#7 = .word w := by
  have h7 : fFunct7 w = BitVec.ofNat 7 (4 * f5 + fmt) := by
    rw [← h5, ← hf]
    refine eq_ofNat_of_toNat_eq ?_
    simp only [fFunct7, fFunct5, fFmt, BitVec.extractLsb'_toNat, Nat.shiftRight_eq_div_pow]
    omega
  exact encR_eq_word_iff.2 ⟨h7, h2, rfl, h3, rfl, hop⟩

/-- A row of OP-FP (46_f.md R446). -/
theorem encode_of_byFmt {f5 : Nat} {rs2 : Reg} {f3 : BitVec 3} {s d q : Instr} (hop : fOpcode w = 0b1010011#7)
    (h5 : (fFunct5 w).toNat = f5) (h : byFmt (fFmt w) s d q = some i)
    (hs : encode s = encR (BitVec.ofNat 7 (4 * f5 + 0)) rs2 (fRs1 w) f3 (fRd w) 0b1010011#7)
    (hd : encode d = encR (BitVec.ofNat 7 (4 * f5 + 1)) rs2 (fRs1 w) f3 (fRd w) 0b1010011#7)
    (hq : encode q = encR (BitVec.ofNat 7 (4 * f5 + 3)) rs2 (fRs1 w) f3 (fRd w) 0b1010011#7)
    (h2 : fRs2 w = rs2) (h3 : fFunct3 w = f3) : encode i = .word w := by
  obtain ⟨hf, rfl⟩ | ⟨hf, rfl⟩ | ⟨hf, rfl⟩ := byFmt_eq_some h
  · exact hs.trans (encR_opFp hop h5 hf h2 h3)
  · exact hd.trans (encR_opFp hop h5 hf h2 h3)
  · exact hq.trans (encR_opFp hop h5 hf h2 h3)

theorem encode_of_decodeFcvtFormat (hop : fOpcode w = 0b1010011#7) (h5 : (fFunct5 w).toNat = 0b01000)
    (h : decodeFcvtFormat w = some i) : encode i = .word w := by
  unfold decodeFcvtFormat at h
  split at h <;> cases h
  all_goals
    rename_i hf h2
    exact (encR_opFp hop h5 hf (eq_ofNat_of_toNat_eq h2) rfl :)

theorem encode_of_decodeOpFp (hop : fOpcode w = 0b1010011#7) (h : decodeOpFp w = some i) : encode i = .word w := by
  unfold decodeOpFp at h
  split at h
  case h_5 h5 =>
    split_ifs at h with h2
    exact encode_of_byFmt hop h5 h rfl rfl rfl h2 rfl
  case h_6 h5 | h_7 h5 | h_9 h5 =>
    split at h
    on_goal -1 => cases h
    all_goals exact encode_of_byFmt hop h5 h rfl rfl rfl rfl (eq_ofNat_of_toNat_eq ‹_›)
  case h_8 h5 => exact encode_of_decodeFcvtFormat hop h5 h
  case h_10 h5 | h_11 h5 =>
    split at h
    on_goal -1 => cases h
    all_goals exact encode_of_byFmt hop h5 h rfl rfl rfl (eq_ofNat_of_toNat_eq ‹_›) rfl
  case h_12 h5 =>
    split_ifs at h with h2
    split at h <;> cases h
    all_goals
      rename_i h3 hf
      exact (encR_opFp hop h5 hf h2 (eq_ofNat_of_toNat_eq h3) :)
  case h_13 h5 =>
    split_ifs at h with h23
    split at h <;> cases h
    all_goals
      rename_i hf
      exact (encR_opFp hop h5 hf h23.1 h23.2 :)
  case h_14 => cases h
  case h_1 h5 | h_2 h5 | h_3 h5 | h_4 h5 => exact encode_of_byFmt hop h5 h rfl rfl rfl rfl rfl

/-- A word that matches a row is the code of the row's instruction: every bit is in a field. -/
theorem encode_of_decodeWord (h : decodeWord w = some i) : encode i = .word w := by
  unfold decodeWord at h
  split at h
  case h_1 hop | h_2 hop => cases h; exact encU_eq_word_iff.2 ⟨rfl, rfl, eq_ofNat_of_toNat_eq hop⟩
  case h_3 hop => cases h; exact encJ_eq_word_iff.2 ⟨rfl, rfl, eq_ofNat_of_toNat_eq hop⟩
  case h_4 hop =>
    split_ifs at h with h3
    cases h
    exact encI_eq_word_iff.2 ⟨rfl, rfl, h3, rfl, eq_ofNat_of_toNat_eq hop⟩
  case h_5 hop => exact encode_of_decodeBranch (eq_ofNat_of_toNat_eq hop) h
  case h_6 hop => exact encode_of_decodeLoad (eq_ofNat_of_toNat_eq hop) h
  case h_7 hop => exact encode_of_decodeLoadFp (eq_ofNat_of_toNat_eq hop) h
  case h_8 hop => exact encode_of_decodeStore (eq_ofNat_of_toNat_eq hop) h
  case h_9 hop => exact encode_of_decodeStoreFp (eq_ofNat_of_toNat_eq hop) h
  case h_10 hop => exact encode_of_decodeMiscMem (eq_ofNat_of_toNat_eq hop) h
  case h_11 hop => exact encode_of_decodeOpImm (eq_ofNat_of_toNat_eq hop) h
  case h_12 hop => exact encode_of_decodeOpImm32 (eq_ofNat_of_toNat_eq hop) h
  case h_13 hop => exact encode_of_decodeOp (eq_ofNat_of_toNat_eq hop) h
  case h_14 hop => exact encode_of_decodeOp32 (eq_ofNat_of_toNat_eq hop) h
  case h_15 hop => exact encode_of_decodeAmo (eq_ofNat_of_toNat_eq hop) h
  case h_16 hop | h_17 hop | h_18 hop | h_19 hop =>
    exact encode_of_byFmt_fused (eq_ofNat_of_toNat_eq hop) h rfl rfl rfl
  case h_20 hop => exact encode_of_decodeOpFp (eq_ofNat_of_toNat_eq hop) h
  case h_21 hop => exact encode_of_decodeSystem (eq_ofNat_of_toNat_eq hop) h
  case h_22 => cases h

end Sys2Proof
end

section
/-! PROOFS. The 16-bit tables: a parcel decodes to the instruction whose code it is (49_c.md R537, R538). -/

namespace Sys2Proof

variable {c : Config} {p : BitVec 16} {i : Instr}

/-! ### The immediates of the stack-relative forms -/

/-- The bits of `hImm6` below its top one are those of h[6:2]. -/
theorem extractLsb'_hImm6_low {s n : Nat} (h : s + n ≤ 5) : (hImm6 p).extractLsb' s n = p.extractLsb' (2 + s) n := by
  rw [hImm6, BitVec.extractLsb'_append_eq_of_add_le h]
  ext k hk
  simp [show s + k < 5 by omega, Nat.add_assoc]

/-- The top bit of `hImm6` is h[12]. -/
theorem extractLsb'_hImm6_high : (hImm6 p).extractLsb' 5 1 = p.extractLsb' 12 1 :=
  BitVec.extractLsb'_append_eq_left

section Stack

variable {imm : BitVec 6}

theorem hImm6_eq_field16sp_iff : hImm6 p = field16sp imm ↔ hImm16sp p = imm := by
  rw [eq_comm, field16sp, append_eq_iff, hImm16sp, append_eq_iff]
  repeat rw [extractLsb'_eq_append_iff]
  simp only [extractLsb'_hImm6_low, extractLsb'_hImm6_high, Nat.reduceAdd, Nat.reduceLeDiff]
  grind

theorem hImm6_eq_fieldLoadSpW_iff : hImm6 p = fieldLoadSpW imm ↔ hLoadSpW p = imm := by
  rw [eq_comm, fieldLoadSpW, append_eq_iff, hLoadSpW, append_eq_iff]
  repeat rw [extractLsb'_eq_append_iff]
  simp only [extractLsb'_hImm6_low, extractLsb'_hImm6_high, Nat.reduceAdd, Nat.reduceLeDiff]
  grind

theorem hImm6_eq_fieldLoadSpD_iff : hImm6 p = fieldLoadSpD imm ↔ hLoadSpD p = imm := by
  rw [eq_comm, fieldLoadSpD, append_eq_iff, hLoadSpD, append_eq_iff]
  repeat rw [extractLsb'_eq_append_iff]
  simp only [extractLsb'_hImm6_low, extractLsb'_hImm6_high, Nat.reduceAdd, Nat.reduceLeDiff]
  grind

theorem field_eq_fieldStoreSpW_iff : p.extractLsb' 7 6 = fieldStoreSpW imm ↔ hStoreSpW p = imm := by
  rw [fieldStoreSpW, hStoreSpW, append_eq_iff, extractLsb'_eq_append_iff (m := 4) (n := 2)]
  grind

theorem field_eq_fieldStoreSpD_iff : p.extractLsb' 7 6 = fieldStoreSpD imm ↔ hStoreSpD p = imm := by
  rw [fieldStoreSpD, hStoreSpD, append_eq_iff, extractLsb'_eq_append_iff (m := 3) (n := 3)]
  grind

end Stack

/-! ### A code decodes to its instruction -/

theorem Instr.fieldsLegal_of_wellFormed (h : i.wellFormed c = true) : i.fieldsLegal c = true :=
  (Bool.and_eq_true_iff.1 (Bool.and_eq_true_iff.1 h).1).2

/-- The code of an instruction of the configuration decodes to it: the quadrant and funct3 select the decoder of its
row, and the base tells apart the rows that share a code. -/
theorem decodeHalf_of_encode (hp : i.present c = true) (hl : i.fieldsLegal c = true) (h : encode i = .half p) :
    decodeHalf c p = some i := by
  cases i with
  | illegalAllZero => cases h; rfl
  | cAddi4spn =>
    obtain ⟨h3, rfl, rfl, hq⟩ := encCIW_eq_half_iff.1 h
    have hne : p ≠ 0#16 := by
      rintro rfl
      exact absurd hl Bool.false_ne_true
    simp [decodeHalf, hq, decodeQuadrant0, h3, hne]
  | cFld | cFsd | cLd | cSd =>
    obtain ⟨h3, rfl, rfl, rfl, hq⟩ := encCD_eq_half_iff.1 h
    simp only [Instr.present, Bool.and_eq_true, Bool.not_eq_true'] at hp
    simp [decodeHalf, hq, decodeQuadrant0, h3, hp]
  | cLw | cSw | cFlw | cFsw =>
    obtain ⟨h3, rfl, rfl, rfl, hq⟩ := encCW_eq_half_iff.1 h
    simp only [Instr.present, Bool.and_eq_true] at hp
    simp [decodeHalf, hq, decodeQuadrant0, h3, hp]
  | cNop =>
    obtain ⟨h3, rfl, hd, hq⟩ := encCI_eq_half_iff.1 h
    simp [decodeHalf, hq, decodeQuadrant1, h3, hd]
  | cAddi =>
    obtain ⟨h3, rfl, rfl, hq⟩ := encCI_eq_half_iff.1 h
    have hd : hRd p ≠ 0#5 := bne_iff_ne.1 hl
    simp [decodeHalf, hq, decodeQuadrant1, h3, hd]
  | cLi | cAddiw =>
    obtain ⟨h3, rfl, rfl, hq⟩ := encCI_eq_half_iff.1 h
    simp only [Instr.present, Bool.and_eq_true, Bool.not_eq_true'] at hp
    simp [decodeHalf, hq, decodeQuadrant1, h3, hp]
  | cAddi16sp =>
    obtain ⟨h3, himm, hd, hq⟩ := encCI_eq_half_iff.1 h
    obtain rfl := hImm6_eq_field16sp_iff.1 himm
    simp [decodeHalf, hq, decodeQuadrant1, h3, hd]
  | cLui =>
    obtain ⟨h3, rfl, rfl, hq⟩ := encCI_eq_half_iff.1 h
    have hd : hRd p ≠ 2#5 := bne_iff_ne.1 (Bool.and_eq_true_iff.1 hl).1
    simp [decodeHalf, hq, decodeQuadrant1, h3, hd]
  | cJal | cJ =>
    obtain ⟨h3, rfl, hq⟩ := encCJ_eq_half_iff.1 h
    simp only [Instr.present, Bool.and_eq_true] at hp
    simp [decodeHalf, hq, decodeQuadrant1, h3, hp]
  | cBeqz | cBnez =>
    obtain ⟨h3, rfl, rfl, hq⟩ := encCB_eq_half_iff.1 h
    simp [decodeHalf, hq, decodeQuadrant1, h3]
  | cSrli | cSrai =>
    obtain ⟨h3, h2, rfl, rfl, hq⟩ := encCBAlu_eq_half_iff.1 h
    have himm : hImm6 p ≠ 0#6 := bne_iff_ne.1 (Bool.and_eq_true_iff.1 hl).1
    simp [decodeHalf, hq, decodeQuadrant1, h3, decodeMiscAlu, h2, himm]
  | cAndi =>
    obtain ⟨h3, h2, rfl, rfl, hq⟩ := encCBAlu_eq_half_iff.1 h
    simp [decodeHalf, hq, decodeQuadrant1, h3, decodeMiscAlu, h2]
  | cSrli64 | cSrai64 =>
    obtain ⟨h3, h2, himm, rfl, hq⟩ := encCBAlu_eq_half_iff.1 h
    simp [decodeHalf, hq, decodeQuadrant1, h3, decodeMiscAlu, h2, himm]
  | cSub | cXor | cOr | cAnd | cSubw | cAddw =>
    obtain ⟨h3, h12, h10, rfl, h5, rfl, hq⟩ := encCA_eq_half_iff.1 h
    simp [decodeHalf, hq, decodeQuadrant1, h3, decodeMiscAlu, h10, h12, h5]
  | cSlli =>
    obtain ⟨h3, rfl, rfl, hq⟩ := encCI_eq_half_iff.1 h
    have himm : hImm6 p ≠ 0#6 := bne_iff_ne.1 (Bool.and_eq_true_iff.1 hl).1
    simp [decodeHalf, hq, decodeQuadrant2, h3, himm]
  | cSlli64 =>
    obtain ⟨h3, himm, rfl, hq⟩ := encCI_eq_half_iff.1 h
    simp [decodeHalf, hq, decodeQuadrant2, h3, himm]
  | cFldsp | cLdsp =>
    obtain ⟨h3, himm, rfl, hq⟩ := encCI_eq_half_iff.1 h
    obtain rfl := hImm6_eq_fieldLoadSpD_iff.1 himm
    simp only [Instr.present, Bool.and_eq_true, Bool.not_eq_true'] at hp
    simp [decodeHalf, hq, decodeQuadrant2, h3, hp]
  | cLwsp | cFlwsp =>
    obtain ⟨h3, himm, rfl, hq⟩ := encCI_eq_half_iff.1 h
    obtain rfl := hImm6_eq_fieldLoadSpW_iff.1 himm
    simp only [Instr.present, Bool.and_eq_true] at hp
    simp [decodeHalf, hq, decodeQuadrant2, h3, hp]
  | cJr =>
    obtain ⟨h3, h12, rfl, h2, hq⟩ := encCR_eq_half_iff.1 h
    simp [decodeHalf, hq, decodeQuadrant2, h3, decodeJumpMove, h12, h2]
  | cJalr =>
    obtain ⟨h3, h12, rfl, h2, hq⟩ := encCR_eq_half_iff.1 h
    have hd : hRd p ≠ 0#5 := bne_iff_ne.1 hl
    simp [decodeHalf, hq, decodeQuadrant2, h3, decodeJumpMove, h12, h2, hd]
  | cEbreak =>
    obtain ⟨h3, h12, hd, h2, hq⟩ := encCR_eq_half_iff.1 h
    simp [decodeHalf, hq, decodeQuadrant2, h3, decodeJumpMove, h12, h2, hd]
  | cMv | cAdd =>
    obtain ⟨h3, h12, rfl, rfl, hq⟩ := encCR_eq_half_iff.1 h
    have h2 : hRs2 p ≠ 0#5 := bne_iff_ne.1 hl
    simp [decodeHalf, hq, decodeQuadrant2, h3, decodeJumpMove, h12, h2]
  | cFsdsp | cSdsp =>
    obtain ⟨h3, himm, rfl, hq⟩ := encCSS_eq_half_iff.1 h
    obtain rfl := field_eq_fieldStoreSpD_iff.1 himm
    simp only [Instr.present, Bool.and_eq_true, Bool.not_eq_true'] at hp
    simp [decodeHalf, hq, decodeQuadrant2, h3, hp]
  | cSwsp | cFswsp =>
    obtain ⟨h3, himm, rfl, hq⟩ := encCSS_eq_half_iff.1 h
    obtain rfl := field_eq_fieldStoreSpW_iff.1 himm
    simp only [Instr.present, Bool.and_eq_true] at hp
    simp [decodeHalf, hq, decodeQuadrant2, h3, hp]
  | cLq | cSq | cLqsp | cSqsp => exact absurd hp Bool.false_ne_true
  | _ => cases h

/-! ### A parcel that decodes is the code of its instruction -/

theorem encode_of_decodeQuadrant0 (hq : p.extractLsb' 0 2 = 0b00#2) (h : decodeQuadrant0 c p = some i) :
    encode i = .half p := by
  unfold decodeQuadrant0 at h
  split at h
  case h_1 h3 =>
    split_ifs at h with hz <;> cases h
    · exact congrArg Code.half hz.symm
    · exact encCIW_eq_half_iff.2 ⟨eq_ofNat_of_toNat_eq h3, rfl, rfl, hq⟩
  case h_2 h3 | h_5 h3 =>
    cases h
    exact encCD_eq_half_iff.2 ⟨eq_ofNat_of_toNat_eq h3, rfl, rfl, rfl, hq⟩
  case h_3 h3 | h_6 h3 =>
    cases h
    exact encCW_eq_half_iff.2 ⟨eq_ofNat_of_toNat_eq h3, rfl, rfl, rfl, hq⟩
  case h_4 h3 | h_7 h3 =>
    cases h
    split
    · exact encCW_eq_half_iff.2 ⟨eq_ofNat_of_toNat_eq h3, rfl, rfl, rfl, hq⟩
    · exact encCD_eq_half_iff.2 ⟨eq_ofNat_of_toNat_eq h3, rfl, rfl, rfl, hq⟩
  case h_8 => cases h

theorem encode_of_decodeMiscAlu (hq : p.extractLsb' 0 2 = 0b01#2) (h3 : hFunct3 p = 0b100#3)
    (h : decodeMiscAlu p = some i) : encode i = .half p := by
  have hlt := (p.extractLsb' 10 2).isLt
  unfold decodeMiscAlu at h
  split at h
  case h_1 h2 | h_2 h2 =>
    cases h
    split
    next himm => exact encCBAlu_eq_half_iff.2 ⟨h3, eq_ofNat_of_toNat_eq h2, himm, rfl, hq⟩
    next => exact encCBAlu_eq_half_iff.2 ⟨h3, eq_ofNat_of_toNat_eq h2, rfl, rfl, hq⟩
  case h_3 h2 =>
    cases h
    exact encCBAlu_eq_half_iff.2 ⟨h3, eq_ofNat_of_toNat_eq h2, rfl, rfl, hq⟩
  case h_4 =>
    have h10 : (p.extractLsb' 10 2).toNat = 3 := by grind
    split at h <;> cases h
    all_goals
      rename_i h12 h5
      exact encCA_eq_half_iff.2 ⟨h3, BitVec.eq_of_toNat_eq h12, BitVec.eq_of_toNat_eq h10, rfl, eq_ofNat_of_toNat_eq h5,
        rfl, hq⟩

theorem encode_of_decodeQuadrant1 (hq : p.extractLsb' 0 2 = 0b01#2) (h : decodeQuadrant1 c p = some i) :
    encode i = .half p := by
  have hlt := (hFunct3 p).isLt
  unfold decodeQuadrant1 at h
  split at h
  case h_1 h3 =>
    cases h
    split
    next hd => exact encCI_eq_half_iff.2 ⟨eq_ofNat_of_toNat_eq h3, rfl, hd, hq⟩
    next => exact encCI_eq_half_iff.2 ⟨eq_ofNat_of_toNat_eq h3, rfl, rfl, hq⟩
  case h_2 h3 =>
    cases h
    split
    · exact encCJ_eq_half_iff.2 ⟨eq_ofNat_of_toNat_eq h3, rfl, hq⟩
    · exact encCI_eq_half_iff.2 ⟨eq_ofNat_of_toNat_eq h3, rfl, rfl, hq⟩
  case h_3 h3 =>
    cases h
    exact encCI_eq_half_iff.2 ⟨eq_ofNat_of_toNat_eq h3, rfl, rfl, hq⟩
  case h_4 h3 =>
    cases h
    split
    next hd => exact encCI_eq_half_iff.2 ⟨eq_ofNat_of_toNat_eq h3, hImm6_eq_field16sp_iff.2 rfl, hd, hq⟩
    next => exact encCI_eq_half_iff.2 ⟨eq_ofNat_of_toNat_eq h3, rfl, rfl, hq⟩
  case h_5 h3 => exact encode_of_decodeMiscAlu hq (eq_ofNat_of_toNat_eq h3) h
  case h_6 h3 =>
    cases h
    exact encCJ_eq_half_iff.2 ⟨eq_ofNat_of_toNat_eq h3, rfl, hq⟩
  case h_7 h3 =>
    cases h
    exact encCB_eq_half_iff.2 ⟨eq_ofNat_of_toNat_eq h3, rfl, rfl, hq⟩
  case h_8 =>
    have h3 : (hFunct3 p).toNat = 7 := by grind
    cases h
    exact encCB_eq_half_iff.2 ⟨eq_ofNat_of_toNat_eq h3, rfl, rfl, hq⟩

theorem encode_of_decodeJumpMove (hq : p.extractLsb' 0 2 = 0b10#2) (h3 : hFunct3 p = 0b100#3)
    (h : decodeJumpMove p = some i) : encode i = .half p := by
  have hlt := (hBit12 p).isLt
  unfold decodeJumpMove at h
  split at h
  case h_1 h12 =>
    cases h
    split
    next h2 => exact encCR_eq_half_iff.2 ⟨h3, BitVec.eq_of_toNat_eq h12, rfl, h2, hq⟩
    next => exact encCR_eq_half_iff.2 ⟨h3, BitVec.eq_of_toNat_eq h12, rfl, rfl, hq⟩
  case h_2 =>
    have h12 : (hBit12 p).toNat = 1 := by grind
    split_ifs at h with h2 hd <;> cases h
    · exact encCR_eq_half_iff.2 ⟨h3, BitVec.eq_of_toNat_eq h12, hd, h2, hq⟩
    · exact encCR_eq_half_iff.2 ⟨h3, BitVec.eq_of_toNat_eq h12, rfl, h2, hq⟩
    · exact encCR_eq_half_iff.2 ⟨h3, BitVec.eq_of_toNat_eq h12, rfl, rfl, hq⟩

theorem encode_of_decodeQuadrant2 (hq : p.extractLsb' 0 2 = 0b10#2) (h : decodeQuadrant2 c p = some i) :
    encode i = .half p := by
  have hlt := (hFunct3 p).isLt
  unfold decodeQuadrant2 at h
  split at h
  case h_1 h3 =>
    cases h
    split
    next himm => exact encCI_eq_half_iff.2 ⟨eq_ofNat_of_toNat_eq h3, himm, rfl, hq⟩
    next => exact encCI_eq_half_iff.2 ⟨eq_ofNat_of_toNat_eq h3, rfl, rfl, hq⟩
  case h_2 h3 =>
    cases h
    exact encCI_eq_half_iff.2 ⟨eq_ofNat_of_toNat_eq h3, hImm6_eq_fieldLoadSpD_iff.2 rfl, rfl, hq⟩
  case h_3 h3 =>
    cases h
    exact encCI_eq_half_iff.2 ⟨eq_ofNat_of_toNat_eq h3, hImm6_eq_fieldLoadSpW_iff.2 rfl, rfl, hq⟩
  case h_4 h3 =>
    cases h
    split
    · exact encCI_eq_half_iff.2 ⟨eq_ofNat_of_toNat_eq h3, hImm6_eq_fieldLoadSpW_iff.2 rfl, rfl, hq⟩
    · exact encCI_eq_half_iff.2 ⟨eq_ofNat_of_toNat_eq h3, hImm6_eq_fieldLoadSpD_iff.2 rfl, rfl, hq⟩
  case h_5 h3 => exact encode_of_decodeJumpMove hq (eq_ofNat_of_toNat_eq h3) h
  case h_6 h3 =>
    cases h
    exact encCSS_eq_half_iff.2 ⟨eq_ofNat_of_toNat_eq h3, field_eq_fieldStoreSpD_iff.2 rfl, rfl, hq⟩
  case h_7 h3 =>
    cases h
    exact encCSS_eq_half_iff.2 ⟨eq_ofNat_of_toNat_eq h3, field_eq_fieldStoreSpW_iff.2 rfl, rfl, hq⟩
  case h_8 =>
    have h3 : (hFunct3 p).toNat = 7 := by grind
    cases h
    split
    · exact encCSS_eq_half_iff.2 ⟨eq_ofNat_of_toNat_eq h3, field_eq_fieldStoreSpW_iff.2 rfl, rfl, hq⟩
    · exact encCSS_eq_half_iff.2 ⟨eq_ofNat_of_toNat_eq h3, field_eq_fieldStoreSpD_iff.2 rfl, rfl, hq⟩

/-- A parcel that selects a row is the code of the row's instruction: every bit is in a field. -/
theorem encode_of_decodeHalf (h : decodeHalf c p = some i) : encode i = .half p := by
  unfold decodeHalf at h
  split at h
  case h_1 hq => exact encode_of_decodeQuadrant0 (eq_ofNat_of_toNat_eq hq) h
  case h_2 hq => exact encode_of_decodeQuadrant1 (eq_ofNat_of_toNat_eq hq) h
  case h_3 hq => exact encode_of_decodeQuadrant2 (eq_ofNat_of_toNat_eq hq) h
  case h_4 => cases h

/-! ### Codes -/

theorem decode_word_eq_ok_iff {w : BitVec 32} :
    decode c (.word w) = .ok i ↔ decodeWord w = some i ∧ i.wellFormed c = true := by
  cases hd : decodeWord w with
  | none => simp [decode, hd]
  | some j =>
    simp only [decode, hd]
    split <;> grind

theorem decode_half_eq_ok_iff : decode c (.half p) = .ok i ↔ decodeHalf c p = some i ∧ i.wellFormed c = true := by
  cases hd : decodeHalf c p with
  | none => simp [decode, hd]
  | some j =>
    simp only [decode, hd]
    split <;> grind

/-- Settles O8: the fields of a code are the operands, and they select the instruction's row. -/
theorem decodeInvertsEncode : Obligations.DecodeInvertsEncode := by
  intro c i hw
  have hl := Instr.fieldsLegal_of_wellFormed hw
  cases hk : encode i with
  | word w => exact decode_word_eq_ok_iff.2 ⟨decodeWord_of_encode hl hk, hw⟩
  | half p => exact decode_half_eq_ok_iff.2 ⟨decodeHalf_of_encode (Instr.present_of_wellFormed hw) hl hk, hw⟩

/-- Settles O9: the rows that decode a code put every bit of it into a field, and `decode` checks the instruction. -/
theorem encodeInvertsDecode : Obligations.EncodeInvertsDecode := by
  intro c k i h
  cases k with
  | word w =>
    obtain ⟨hd, hw⟩ := decode_word_eq_ok_iff.1 h
    exact ⟨encode_of_decodeWord hd, hw⟩
  | half p =>
    obtain ⟨hd, hw⟩ := decode_half_eq_ok_iff.1 h
    exact ⟨encode_of_decodeHalf hd, hw⟩

end Sys2Proof
end

section
/-! PROOFS. Codes and instructions that are illegal (30_encoding.md R152, R178; 60_exceptions.md R609, R610). -/

namespace Sys2Proof.Machine

/-! ### An instruction the configuration does not have -/

/-- In every shape the legality check comes first (60_exceptions.md R620). -/
theorem Shape.illegal_of_not_wf {i : Instr} {s : State} {p : Footprint} {o : Result} (h : Shape i s p o)
    (hw : i.wellFormed s.cfg = false) : o = .next (s.trap .illegalInstruction (encode i).bits i.ilen) := by
  cases h with
  | illegal => exact illegal_eq i s
  | _ => exact legal_of_not_wf i s hw _

/-- Settles O13: whatever its shape, the instruction fails its legality check. -/
theorem absentInstructionRaisesIllegal : Obligations.AbsentInstructionRaisesIllegal :=
  fun i s hw => (exec_shape i s).illegal_of_not_wf hw

/-! ### The two illegal patterns -/

theorem decodeWord_of_low_zero {w : BitVec 32} (h : w.extractLsb' 0 16 = 0#16) : decodeWord w = none := by
  have hop : fOpcode w = 0#7 := by
    rw [fOpcode, ← BitVec.extractLsb'_extractLsb'_of_le (len' := 16) (by decide), h]
    rfl
  simp [decodeWord, hop]

theorem decodeWord_all_ones : decodeWord 0xFFFFFFFF#32 = none := rfl

/-- The parcel of zeros is the defined illegal instruction with C, which raises when executed, and no instruction
without C. -/
theorem step_of_zero_half {s s' : State} (hr : s.status = .running) (ha : s.cfg.aligned s.pc = true)
    (hf : s.fetch = .code (.half 0#16) s') : step s = .next (s'.trap .illegalInstruction 0#64 2) := by
  cases hd : decode s.cfg (.half 0#16) with
  | error e => exact step_of_reject hr ha hf hd
  | ok i =>
    obtain ⟨hrow, -⟩ := decode_half_eq_ok_iff.1 hd
    have hi : Instr.illegalAllZero = i := Option.some.inj hrow
    rw [step_of_code hr ha hf hd, ← hi]
    exact followLoop_trapped _ s' (by simp)

theorem step_of_no_row {s s' : State} {w : BitVec 32} (hr : s.status = .running) (ha : s.cfg.aligned s.pc = true)
    (hf : s.fetch = .code (.word w) s') (hd : decodeWord w = none) :
    step s = .next (s'.trap .illegalInstruction (w.setWidth 64) 4) :=
  step_of_reject (e := .reserved) hr ha hf (by simp [decode, hd])

/-- Settles O10: no row matches either word, and the parcel of zeros raises with and without C. -/
theorem twoPatternsAreIllegal : Obligations.TwoPatternsAreIllegal := by
  refine ⟨fun c => ⟨by simp [isHalf], by simp [isHalf]⟩, fun s s' => step_of_zero_half, fun s s' w hr ha hf hw => ?_⟩
  rcases hw with hlow | rfl
  · exact step_of_no_row hr ha hf (decodeWord_of_low_zero hlow)
  · exact step_of_no_row hr ha hf decodeWord_all_ones

end Sys2Proof.Machine
end

section
/-! PROOFS. The integer computations of RV32I as exact integer results (40_rv32i_integer.md R201 to R222). The value of
a cell is taken at width `xlen`, so that no result here is proved once for RV32 and once for RV64. -/

namespace Sys2Proof

/-! ### The XLEN-bit value of a cell -/

/-- The XLEN-bit value that a cell holds (00_scope.md R8). -/
def Config.lowBits (c : Config) (v : Word) : BitVec c.xlen := v.setWidth c.xlen

theorem Config.xlen_le (c : Config) : c.xlen ≤ 64 := by
  unfold Config.xlen; split <;> decide

theorem Config.le_xlen (c : Config) : 32 ≤ c.xlen := by
  unfold Config.xlen; split <;> decide

/-- Truncation keeps the XLEN-bit value and nothing else. -/
theorem Config.truncate_eq_iff_lowBits {c : Config} {a b : Word} :
    c.truncate a = c.truncate b ↔ c.lowBits a = c.lowBits b := by
  rw [c.truncate_eq_iff, ← BitVec.toNat_inj, Config.lowBits, Config.lowBits, BitVec.toNat_setWidth,
    BitVec.toNat_setWidth]

@[simp] theorem Config.lowBits_truncate (c : Config) (v : Word) : c.lowBits (c.truncate v) = c.lowBits v :=
  truncate_eq_iff_lowBits.1 (c.truncate_truncate v)

theorem Config.lowBits_addX (c : Config) (a b : Word) : c.lowBits (c.addX a b) = c.lowBits a + c.lowBits b := by
  rw [Config.addX, c.lowBits_truncate]; exact BitVec.setWidth_add a b c.xlen_le

theorem Config.lowBits_ofInt (c : Config) (v : Int) : c.lowBits (.ofInt 64 v) = .ofInt c.xlen v := by
  apply BitVec.eq_of_toNat_eq
  rw [Config.lowBits, BitVec.toNat_setWidth, BitVec.toNat_ofInt, BitVec.toNat_ofInt]
  rcases c.xlen_cases with ⟨_, hx⟩ | ⟨_, hx⟩ <;> rw [hx] <;> omega

theorem Config.lowBits_eq_ofInt_toNat (c : Config) (v : Word) : c.lowBits v = .ofInt c.xlen v.toNat := by
  rw [BitVec.ofInt_natCast, BitVec.ofNat_toNat]; rfl

theorem Config.lowBits_sext (c : Config) {n : Nat} (v : BitVec n) : c.lowBits (c.sext v) = .ofInt c.xlen v.toInt := by
  rw [Config.sext, c.lowBits_truncate]; exact c.lowBits_ofInt v.toInt

/-- An operation at XLEN bits acts on the XLEN-bit values. -/
theorem Config.lowBits_atXlen (c : Config) (op : (w : Nat) → BitVec w → BitVec w → BitVec w) (a b : Word) :
    c.lowBits (c.atXlen op a b) = op c.xlen (c.lowBits a) (c.lowBits b) := by
  unfold Config.lowBits
  rcases c.xlen_cases with ⟨h, hx⟩ | ⟨h, hx⟩ <;> rw [hx]
  · rw [Config.atXlen_32 h, BitVec.setWidth_setWidth_of_le _ (by decide), BitVec.setWidth_eq]
  · simp only [Config.atXlen_64 h, BitVec.setWidth_eq]

end Sys2Proof

namespace Sys2Proof.Machine

theorem State.intX_eq (s : State) (r : Reg) : s.intX r = (s.cfg.lowBits (s.readX r)).toInt :=
  (BitVec.toInt_setWidth _).symm

theorem State.natX_eq (s : State) (r : Reg) : s.natX r = (s.cfg.lowBits (s.readX r)).toNat :=
  (BitVec.toNat_setWidth _ _).symm

/-! ### Immediates -/

theorem toInt_lowBits_sext (c : Config) (imm : BitVec 12) : (c.lowBits (c.sext imm)).toInt = imm.toInt := by
  rw [c.lowBits_sext]
  exact BitVec.toInt_signExtend_of_le (le_trans (by decide) c.le_xlen)

theorem toNat_lowBits_sext (c : Config) (imm : BitVec 12) :
    ((c.lowBits (c.sext imm)).toNat : Int) = imm.toInt % 2 ^ c.xlen := by
  rw [c.lowBits_sext, BitVec.toNat_ofInt, Int.toNat_of_nonneg (Int.emod_nonneg _ (by positivity))]
  norm_cast

/-- The 20-bit immediate above twelve zeros (40_rv32i_integer.md R201). -/
theorem lowBits_immU (c : Config) (u : BitVec 20) : c.lowBits (c.immU u) = .ofInt c.xlen (u.toInt * 2 ^ 12) := by
  rw [Config.immU, c.lowBits_sext, toInt_append_zeros]

theorem toNat_lt_xlen_of_shamtFits {c : Config} {sh : BitVec 6} (h : shamtFits c sh = true) : sh.toNat < c.xlen := by
  rcases c.xlen_cases with ⟨h32, hx⟩ | ⟨_, hx⟩ <;> rw [hx]
  · have hmsb : sh.msb = false := by simpa [shamtFits, h32, BitVec.msb_eq_getLsbD_last] using h
    exact BitVec.toNat_lt_of_msb_false hmsb
  · exact sh.isLt

/-- A shift by an immediate that the configuration admits shifts by all of it (40_rv32i_integer.md R210 to R212). -/
theorem toNat_shamt_mod {c : Config} {sh : BitVec 6} (h : shamtFits c sh = true) :
    (c.lowBits (zext sh)).toNat % c.xlen = sh.toNat := by
  have hlt := toNat_lt_xlen_of_shamtFits h
  have hval : (c.lowBits (zext sh)).toNat = sh.toNat := by
    rw [Config.lowBits, zext, BitVec.setWidth_setWidth_of_le _ c.xlen_le]
    exact BitVec.toNat_setWidth_of_le (le_trans (by decide) c.le_xlen)
  rw [hval, Nat.mod_eq_of_lt hlt]

/-! ### What the shapes answer -/

section Shapes

variable {i : Instr} {s : State} (hw : i.wellFormed s.cfg = true) {rd rs1 : Reg} {v : Word}
  {op : (w : Nat) → BitVec w → BitVec w → BitVec w}

include hw

/-- A result is known by its XLEN-bit value. -/
theorem setReg_of_lowBits {r : Word} (h : s.cfg.lowBits v = s.cfg.lowBits r) :
    setReg i rd v s = .next (s.afterX rd r i.ilen) := by
  rw [setReg_of_wf i s hw, s.afterX_congr rd (Config.truncate_eq_iff_lowBits.2 h)]

theorem setReg_of_ofInt {r : Int} (h : s.cfg.lowBits v = .ofInt s.cfg.xlen r) :
    setReg i rd v s = .next (s.afterX rd (.ofInt 64 r) i.ilen) :=
  setReg_of_lowBits hw (h.trans (s.cfg.lowBits_ofInt r).symm)

/-- An operation whose XLEN-bit result is `r`, for an immediate and for a second register alike. -/
theorem opImm_of_lowBits {r : Word}
    (h : op s.cfg.xlen (s.cfg.lowBits (s.readX rs1)) (s.cfg.lowBits v) = s.cfg.lowBits r) :
    opImm i op rd rs1 v s = .next (s.afterX rd r i.ilen) :=
  setReg_of_lowBits hw ((s.cfg.lowBits_atXlen op _ _).trans h)

theorem opImm_of_ofInt {r : Int}
    (h : op s.cfg.xlen (s.cfg.lowBits (s.readX rs1)) (s.cfg.lowBits v) = .ofInt s.cfg.xlen r) :
    opImm i op rd rs1 v s = .next (s.afterX rd (.ofInt 64 r) i.ilen) :=
  setReg_of_ofInt hw ((s.cfg.lowBits_atXlen op _ _).trans h)

/-- The same where the statement reads the immediate at 64 bits. -/
theorem opImm_sext_of_lowBits {imm : BitVec 12} {r : Word}
    (h : op s.cfg.xlen (s.cfg.lowBits (s.readX rs1)) (s.cfg.lowBits (imm.signExtend 64)) = s.cfg.lowBits r) :
    opImm i op rd rs1 (s.cfg.sext imm) s = .next (s.afterX rd r i.ilen) :=
  opImm_of_lowBits hw (by rw [Config.sext, Config.lowBits_truncate, h])

end Shapes

/-! ### The statements -/

/-- Settles O17: each result is the operation's exact integer result at the XLEN-bit values of the operands. -/
theorem immediateResults : Obligations.ImmediateResults := by
  intro s rd rs1 imm u sh
  simp only [State.intX_eq, State.natX_eq]
  have hk := toInt_lowBits_sext s.cfg imm
  have hsh : ∀ {i : Instr}, i.fieldsLegal s.cfg = shamtFits s.cfg sh → i.wellFormed s.cfg = true →
      (s.cfg.lowBits (zext sh)).toNat % s.cfg.xlen = sh.toNat :=
    fun hf hw => toNat_shamt_mod (hf ▸ Instr.fieldsLegal_of_wellFormed hw)
  refine ⟨?lui, ?auipc, ?addi, ?slti, ?sltiu, ?xori, ?ori, ?andi, ?slli, ?srli, ?srai⟩ <;> intro hw
  case lui => exact setReg_of_ofInt hw (lowBits_immU _ u)
  case auipc =>
    refine setReg_of_ofInt hw ?_
    rw [Config.lowBits_addX, lowBits_immU, Config.lowBits_eq_ofInt_toNat, BitVec.ofInt_add]
  case addi => rw [← hk]; exact opImm_of_ofInt hw (aluAdd_ofInt _ _)
  case slti => rw [← hk]; exact opImm_of_ofInt hw (aluSlt_ofInt _ _)
  case sltiu =>
    simp only [← toNat_lowBits_sext, Int.ofNat_lt]
    exact opImm_of_ofInt hw (aluSltu_ofInt _ _)
  case xori => exact opImm_sext_of_lowBits hw BitVec.setWidth_xor.symm
  case ori => exact opImm_sext_of_lowBits hw BitVec.setWidth_or.symm
  case andi => exact opImm_sext_of_lowBits hw BitVec.setWidth_and.symm
  case slli => rw [← hsh rfl hw]; exact opImm_of_ofInt hw (aluSll_ofInt _ _)
  case srli => rw [← hsh rfl hw]; exact opImm_of_ofInt hw (aluSrl_ofInt _ _)
  case srai => rw [← hsh rfl hw]; exact opImm_of_ofInt hw (aluSra_ofInt _ _)

/-- Settles O18: `opReg` is `opImm` at the second register's value, and the computations take the shift amount
modulo their width themselves. -/
theorem registerResults : Obligations.RegisterResults := by
  intro s rd rs1 rs2
  simp only [State.intX_eq, State.natX_eq]
  refine ⟨?add, ?sub, ?sll, ?slt, ?sltu, ?xor, ?srl, ?sra, ?or, ?and⟩ <;> intro hw
  case add => exact opImm_of_ofInt hw (aluAdd_ofInt _ _)
  case sub => exact opImm_of_ofInt hw (aluSub_ofInt _ _)
  case sll => exact opImm_of_ofInt hw (aluSll_ofInt _ _)
  case slt => exact opImm_of_ofInt hw (aluSlt_ofInt _ _)
  case sltu => exact opImm_of_ofInt hw (aluSltu_ofInt _ _)
  case xor => exact opImm_of_lowBits hw BitVec.setWidth_xor.symm
  case srl => exact opImm_of_ofInt hw (aluSrl_ofInt _ _)
  case sra => exact opImm_of_ofInt hw (aluSra_ofInt _ _)
  case or => exact opImm_of_lowBits hw BitVec.setWidth_or.symm
  case and => exact opImm_of_lowBits hw BitVec.setWidth_and.symm

end Sys2Proof.Machine
end

section
/-! PROOFS. Control transfer, fences, and the integer loads and stores (41_rv32i_control_memory_system.md). Every
address here is a cell plus an offset modulo 2^XLEN, and every branch test a comparison of XLEN-bit values. -/

namespace Sys2Proof

/-! ### Addresses -/

/-- A cell plus an offset that is known modulo 2^XLEN (20_memory.md R60). -/
theorem Config.addX_of_lowBits {c : Config} {a b : Word} {d : Int} (h : c.lowBits b = .ofInt c.xlen d) :
    c.addX a b = c.truncate (.ofInt 64 (a.toNat + d)) := by
  have hsum : c.lowBits (c.addX a b) = c.lowBits (.ofInt 64 (a.toNat + d)) := by
    rw [c.lowBits_addX, h, c.lowBits_ofInt, c.lowBits_eq_ofInt_toNat, BitVec.ofInt_add]
  rw [← Config.truncate_eq_iff_lowBits, Config.addX, c.truncate_truncate] at hsum
  exact hsum

/-- With C every even address is a possible `pc` (10_state.md R26). -/
theorem Config.aligned_iff_even {c : Config} (h : c.ext.c = true) (a : Word) :
    c.aligned a = true ↔ a.toNat % 2 = 0 := by
  rw [Config.aligned, Config.ialignBytes, if_pos h, beq_iff_eq]

theorem Config.aligned_clearBit0 {c : Config} (h : c.ext.c = true) (a : Word) :
    c.aligned (Machine.clearBit0 a) = true := by
  rw [Config.aligned_iff_even h, Machine.clearBit0_eq, BitVec.toNat_ofNat]
  omega

/-- An offset is sign-extended and even (30_encoding.md R165, R167). -/
theorem Config.offset_eq (c : Config) {n : Nat} (off : BitVec n) :
    c.offset off = c.truncate (.ofInt 64 (2 * off.toInt)) := by
  rw [Config.offset, Config.sext, BitVec.signExtend, Machine.toInt_append_zeros, pow_one, mul_comm]

theorem Config.aligned_offset {c : Config} (h : c.ext.c = true) {n : Nat} (off : BitVec n) :
    c.aligned (c.offset off) = true := by
  rw [Config.aligned_iff_even h, c.offset_eq, c.truncate_toNat, BitVec.toNat_ofInt]
  rcases c.xlen_cases with ⟨-, hx⟩ | ⟨-, hx⟩ <;> rw [hx] <;> omega

/-- A test at XLEN bits compares the XLEN-bit values. -/
theorem Config.testXlen_eq (c : Config) (test : (w : Nat) → BitVec w → BitVec w → Bool) (a b : Word) :
    c.testXlen test a b = test c.xlen (c.lowBits a) (c.lowBits b) := by
  unfold Config.lowBits
  rcases c.xlen_cases with ⟨h, hx⟩ | ⟨h, hx⟩ <;> rw [hx] <;> simp [Config.testXlen, h]

end Sys2Proof

namespace Sys2Proof.Machine

/-! ### Effective addresses and targets -/

theorem State.ea_eq (s : State) (rs1 : Reg) (imm : BitVec 12) :
    s.ea rs1 imm = s.cfg.truncate (.ofInt 64 ((s.readX rs1).toNat + imm.toInt)) :=
  Config.addX_of_lowBits (s.cfg.lowBits_sext imm)

theorem State.target_eq (s : State) {n : Nat} (off : BitVec n) :
    s.target off = s.cfg.truncate (.ofInt 64 (s.pc.toNat + 2 * off.toInt)) := by
  refine Config.addX_of_lowBits ?_
  rw [Config.offset_eq, Config.lowBits_truncate, Config.lowBits_ofInt]

/-- The offset of a compressed load or store counts in units of `2^k` bytes (49_c.md R538). -/
theorem State.eaScaled_eq (s : State) (base : Reg) {n : Nat} (imm : BitVec n) {k : Nat} (h : n + k ≤ 31) :
    s.eaScaled base (scaled k imm) = s.cfg.truncate (.ofNat 64 ((s.readX base).toNat + 2 ^ k * imm.toNat)) := by
  obtain ⟨-, -, hv⟩ := scaled_values k imm h
  rw [State.eaScaled, Config.addX, BitVec.ofNat_add, BitVec.ofNat_toNat, BitVec.setWidth_eq, mul_comm, ← hv,
    BitVec.ofNat_toNat, BitVec.setWidth_eq]

theorem State.eaScaled_word (s : State) (base : Reg) {n : Nat} (imm : BitVec n) (h : n + 2 ≤ 31 := by decide) :
    s.eaScaled base (scaled 2 imm) = s.cfg.truncate (.ofNat 64 ((s.readX base).toNat + 4 * imm.toNat)) :=
  s.eaScaled_eq base imm h

theorem State.eaScaled_double (s : State) (base : Reg) {n : Nat} (imm : BitVec n) (h : n + 3 ≤ 31 := by decide) :
    s.eaScaled base (scaled 3 imm) = s.cfg.truncate (.ofNat 64 ((s.readX base).toNat + 8 * imm.toNat)) :=
  s.eaScaled_eq base imm h

/-- With C the targets of jumps and branches from an aligned `pc` are aligned. -/
theorem State.aligned_target {s : State} (hc : s.cfg.ext.c = true) (ha : s.cfg.aligned s.pc = true) {n : Nat}
    (off : BitVec n) : s.cfg.aligned (s.target off) = true :=
  Config.aligned_addX ha (Config.aligned_offset hc off)

/-! ### The branch tests as comparisons of integers -/

section Tests

variable {w : Nat} (a b : BitVec w)

theorem testEq_iff : testEq w a b = true ↔ a.toInt = b.toInt := by
  rw [testEq, beq_iff_eq, BitVec.toInt_inj]

theorem testNe_iff : testNe w a b = true ↔ a.toInt ≠ b.toInt := by
  rw [testNe, bne_iff_ne, BitVec.toInt_ne]

theorem testLt_iff : testLt w a b = true ↔ a.toInt < b.toInt := BitVec.slt_iff_toInt_lt

theorem testGe_iff : testGe w a b = true ↔ a.toInt ≥ b.toInt := by
  rw [testGe, Bool.not_eq_true', ← Bool.not_eq_true, BitVec.slt_iff_toInt_lt, not_lt]

theorem testLtu_iff : testLtu w a b = true ↔ a.toNat < b.toNat := BitVec.ult_iff_toNat_lt

theorem testGeu_iff : testGeu w a b = true ↔ a.toNat ≥ b.toNat := by
  rw [testGeu, Bool.not_eq_true', ← Bool.not_eq_true, BitVec.ult_iff_toNat_lt, not_lt]

end Tests

/-! ### Jumps and branches -/

section Control

variable {i : Instr} {s : State} {target : Word} (hw : i.wellFormed s.cfg = true)

include hw

/-- From a running hart a jump to an aligned target raises nothing. -/
theorem jumpLink_keeps_aligned (hr : s.status = .running) (ht : s.cfg.aligned target = true) (rd : Reg) :
    ∃ t : State, jumpLink i rd target s = .next t ∧ t.status = .running ∧ s.cfg.aligned t.pc = true :=
  ⟨_, jumpLink_of_aligned i s hw ht rd, hr, ht⟩

variable {test : (w : Nat) → BitVec w → BitVec w → Bool} {rs1 rs2 : Reg} {P : Prop}
  (hP : test s.cfg.xlen (s.cfg.lowBits (s.readX rs1)) (s.cfg.lowBits (s.readX rs2)) = true ↔ P)

include hP

/-- A branch goes on where its test `P` fails and jumps where it holds (R235). -/
theorem branch_of_test :
    (¬ P → branch i test rs1 rs2 target s = .next (s.afterPc (s.pcAfter i.ilen))) ∧
      (P → branch i test rs1 rs2 target s = jump i target s s) := by
  rw [← s.cfg.testXlen_eq test] at hP
  exact ⟨fun h => branch_of_not_taken i s hw (Bool.eq_false_iff.2 (mt hP.1 h)) target,
    fun h => branch_of_taken i s hw (hP.2 h) target⟩

/-- Taken to an aligned target or not taken, a branch raises nothing. -/
theorem branch_results :
    (¬ P → branch i test rs1 rs2 target s = .next (s.afterPc (s.pcAfter i.ilen))) ∧
      (P → s.cfg.aligned target = true → branch i test rs1 rs2 target s = .next (s.afterPc target)) :=
  have ⟨stays, jumps⟩ := branch_of_test hw hP
  ⟨stays, fun h ht => (jumps h).trans (jump_of_aligned i ht s)⟩

/-- A taken branch to a misaligned target raises on itself (60_exceptions.md R611). -/
theorem branch_traps (h : P) (ht : s.cfg.aligned target = false) :
    branch i test rs1 rs2 target s = .next (s.trap .instructionAddressMisaligned target i.ilen) :=
  ((branch_of_test hw hP).2 h).trans (jump_of_misaligned i ht s)

/-- From a running hart at an aligned `pc` a branch to an aligned target raises nothing, taken or not. -/
theorem branch_keeps_aligned (hr : s.status = .running) (ha : s.cfg.aligned s.pc = true)
    (ht : s.cfg.aligned target = true) :
    ∃ t : State, branch i test rs1 rs2 target s = .next t ∧ t.status = .running ∧ s.cfg.aligned t.pc = true := by
  have ⟨stays, jumps⟩ := branch_results (target := target) hw hP
  by_cases h : P
  · exact ⟨_, jumps h ht, hr, ht⟩
  · exact ⟨_, stays h, hr, Config.aligned_addX ha (Config.aligned_ilen hw)⟩

end Control

/-- The zero register reads as the integer 0. -/
theorem State.intX_x0 (s : State) : s.intX 0#5 = 0 := by simp [State.intX, State.readX]

/-- Settles O25: every jump is `jumpLink`, at a `pc`-relative target or at a register's with bit 0 cleared. -/
theorem jumpResults : Obligations.JumpResults := by
  intro s rd rs1 imm o20 o11
  simp only [← State.target_eq, ← State.ea_eq, ← clearBit0_eq]
  refine ⟨?jal, ?jalr, ?cJal, ?cJ, ?cJr, ?cJalr⟩ <;> intro hw ha
  case jal | jalr => exact jumpLink_of_aligned _ s hw ha rd
  case cJal | cJalr => exact jumpLink_of_aligned _ s hw ha 1#5
  case cJ | cJr => exact jumpLink_of_aligned _ s hw ha 0#5

/-- Settles O26: every branch is `branch` at its own test; those of C compare with x0. -/
theorem branchResults : Obligations.BranchResults := by
  intro s rs1 rs2 p off o8
  simp only [← State.target_eq, ← s.intX_x0]
  simp only [State.intX_eq, State.natX_eq]
  refine ⟨?beq, ?bne, ?blt, ?bge, ?bltu, ?bgeu, ?cBeqz, ?cBnez⟩ <;> intro hw
  case beq | cBeqz => exact branch_results hw (testEq_iff _ _)
  case bne | cBnez => exact branch_results hw (testNe_iff _ _)
  case blt => exact branch_results hw (testLt_iff _ _)
  case bge => exact branch_results hw (testGe_iff _ _)
  case bltu => exact branch_results hw (testLtu_iff _ _)
  case bgeu => exact branch_results hw (testGeu_iff _ _)

/-- Settles O27: the check on the target comes before the link, and with C the target of every form is even. -/
theorem misalignedTargetsTrap : Obligations.MisalignedTargetsTrap := by
  intro s rd rs1 rs2 imm off o20 bad fine
  simp only [State.intX_eq, State.natX_eq]
  have branchFine : ∀ {i : Instr} {test}, exec i s = branch i test rs1 rs2 (s.target off) s → fine i :=
    fun he hr hw hc ha => he ▸ branch_keeps_aligned hw Iff.rfl hr ha (State.aligned_target hc ha off)
  refine ⟨?jal, ?jalFine, ?jalr, ?jalrFine, ?beq, branchFine rfl, ?bne, branchFine rfl, ?blt, branchFine rfl, ?bge,
    branchFine rfl, ?bltu, branchFine rfl, ?bgeu, branchFine rfl⟩
  case jal | jalr => exact fun hw ha => jumpLink_of_misaligned _ s hw ha rd
  case jalFine => exact fun hr hw hc ha => jumpLink_keeps_aligned hw hr (State.aligned_target hc ha o20) rd
  case jalrFine => exact fun hr hw hc _ => jumpLink_keeps_aligned hw hr (Config.aligned_clearBit0 hc _) rd
  case beq => exact fun h hw => branch_traps hw (testEq_iff _ _) h
  case bne => exact fun h hw => branch_traps hw (testNe_iff _ _) h
  case blt => exact fun h hw => branch_traps hw (testLt_iff _ _) h
  case bge => exact fun h hw => branch_traps hw (testGe_iff _ _) h
  case bltu => exact fun h hw => branch_traps hw (testLtu_iff _ _) h
  case bgeu => exact fun h hw => branch_traps hw (testGeu_iff _ _) h

/-! ### Fences -/

/-- RV32E takes nothing from an instruction that names no integer register (42_rv32e_rv64i_rv128i.md R271). -/
theorem wellFormed_of_no_xregs {c : Config} {i : Instr} (hp : i.present c = true) (hl : i.fieldsLegal c = true)
    (hx : i.xregs = []) : i.wellFormed c = true := by
  have he : i.xregsExist c = true := by
    unfold Instr.xregsExist
    rw [hx]
    split <;> rfl
  rw [Instr.wellFormed, hp, hl, he]
  rfl

/-- Settles O28: the fences are `noEffect`, and FENCE.I retires from the state without candidates. -/
theorem fenceResults : Obligations.FenceResults := by
  intro s fm pred succ rs1 rd imm
  refine ⟨?fence, ?fenceTso, ?pause, ?fenceI⟩
  case fence => exact fun hw => noEffect_of_wf _ s hw
  case fenceTso => exact noEffect_of_wf _ s (wellFormed_of_no_xregs rfl rfl rfl)
  case pause => exact noEffect_of_wf _ s (wellFormed_of_no_xregs rfl rfl rfl)
  case fenceI => exact fun hz => legal_of_wf _ s (wellFormed_of_no_xregs (i := .fenceI imm rs1 rd) hz rfl rfl) _

/-! ### Loads and stores -/

section Accesses

variable {i : Instr} {s : State} {n : Nat} {sgn : Bool} {rd rs2 : Reg} {ea addr : Word} (he : ea = addr)
  (hw : i.wellFormed s.cfg = true)

include he hw

/-- A load at an effective address that is `addr` as the statements write it. -/
theorem loadX_at (hf : dataFault s.cfg .read addr n = none) :
    loadX i n sgn rd ea s = .next ((s.memRead addr n).2.afterX rd
      (if sgn then (s.memRead addr n).1.signExtend 64 else (s.memRead addr n).1.setWidth 64) i.ilen) := by
  subst he; exact loadX_of_ok i s hw hf sgn rd

/-- The same for a store. -/
theorem storeX_at (hf : dataFault s.cfg .write addr n = none) :
    storeX i n rs2 ea s =
      .next ((s.memWrite addr n ((s.readX rs2).setWidth (8 * n))).afterPc (s.pcAfter i.ilen)) := by
  subst he; exact storeX_of_ok i s hw hf rs2

end Accesses

/-- Settles O29: every load is `loadX` at its effective address. -/
theorem loadResults : Obligations.LoadResults := by
  intro s rd rs1 imm p q o5 o6
  have ea := s.ea_eq rs1 imm
  exact ⟨loadX_at ea, loadX_at ea, loadX_at ea, loadX_at ea, loadX_at ea, loadX_at ea, loadX_at ea,
    loadX_at (s.eaScaled_word q.full o5), loadX_at (s.eaScaled_double q.full o5), loadX_at (s.eaScaled_word 2#5 o6),
    loadX_at (s.eaScaled_double 2#5 o6)⟩

/-- Settles O30: every store is `storeX` at its effective address. -/
theorem storeResults : Obligations.StoreResults := by
  intro s rs1 rs2 imm p q o5 o6
  have ea := s.ea_eq rs1 imm
  exact ⟨storeX_at ea, storeX_at ea, storeX_at ea, storeX_at ea, storeX_at (s.eaScaled_word p.full o5),
    storeX_at (s.eaScaled_double p.full o5), storeX_at (s.eaScaled_word 2#5 o6), storeX_at (s.eaScaled_double 2#5 o6)⟩

end Sys2Proof.Machine
end

section
/-! PROOFS. The registers of RV32E, and the W forms of RV64I as exact integer results on the low 32 bits of a cell
(42_rv32e_rv64i_rv128i.md R271, R277 to R286). -/

namespace Sys2Proof.Machine

/-! ### RV32E -/

/-- Bit 4 of a register's number is set from x16 on. -/
theorem getLsbD_four_of_upper {r : Reg} (h : 16 ≤ r.toNat) : r.getLsbD 4 = true := by
  rw [← BitVec.msb_eq_getLsbD_last r, BitVec.msb_eq_true_iff_two_mul_ge]
  omega

theorem xregsExist_eq_false_of_upper {c : Config} {i : Instr} {r : Reg} (hc : c.base = .rv32e) (hr : r ∈ i.xregs)
    (hu : 16 ≤ r.toNat) : i.xregsExist c = false := by
  simp only [Instr.xregsExist, hc, List.all_eq_false]
  exact ⟨r, hr, by simp [getLsbD_four_of_upper hu]⟩

/-- Settles O14: the register does not exist, so the instruction is one that the configuration does not have. -/
theorem rv32eUpperRegistersRaiseIllegal : Obligations.Rv32eUpperRegistersRaiseIllegal := by
  intro i s r hc hr hu
  have hw : i.wellFormed s.cfg = false := by
    rw [Instr.wellFormed, xregsExist_eq_false_of_upper hc hr hu, Bool.and_false]
  exact absentInstructionRaisesIllegal i s hw

/-! ### The W forms -/

/-- A W form whose 32-bit result is `v`, for an immediate and for a second register alike. -/
theorem opImmW_of_ofInt {i : Instr} {s : State} (hw : i.wellFormed s.cfg = true) {rd rs1 : Reg} {b : Word} {v : Int}
    {op : (w : Nat) → BitVec w → BitVec w → BitVec w}
    (h : op 32 ((s.readX rs1).setWidth 32) (b.setWidth 32) = .ofInt 32 v) :
    opImmW i op rd rs1 b s = .next (s.afterX rd ((BitVec.ofInt 32 v).signExtend 64) i.ilen) := by
  rw [opImmW, onWord, h, setReg_of_wf i s hw]

/-- The five-bit shift amount of a W form shifts by all of it (42_rv32e_rv64i_rv128i.md R279 to R281). -/
theorem toNat_shamtW_mod (sh : BitVec 5) : ((zext sh).setWidth 32).toNat % 32 = sh.toNat := by
  rw [zext, BitVec.setWidth_setWidth_of_le _ (by decide), BitVec.toNat_setWidth_of_le (by decide)]
  exact Nat.mod_eq_of_lt sh.isLt

/-- Settles O19: each result is the operation's exact integer result at the low 32 bits of the operands; the shifts take
their amount modulo 32 themselves. -/
theorem wordResults : Obligations.WordResults := by
  intro s rd rs1 rs2 imm sh
  simp only [intW_eq, natW_eq]
  have hk := toInt_sext_32 s.cfg (by decide) imm
  have hsh := toNat_shamtW_mod sh
  refine ⟨?addiw, ?slliw, ?srliw, ?sraiw, ?addw, ?subw, ?sllw, ?srlw, ?sraw⟩ <;> intro hw
  case addiw => rw [← hk]; exact opImmW_of_ofInt hw (aluAdd_ofInt _ _)
  case slliw => rw [← hsh]; exact opImmW_of_ofInt hw (aluSll_ofInt _ _)
  case srliw => rw [← hsh]; exact opImmW_of_ofInt hw (aluSrl_ofInt _ _)
  case sraiw => rw [← hsh]; exact opImmW_of_ofInt hw (aluSra_ofInt _ _)
  case addw => exact opImmW_of_ofInt hw (aluAdd_ofInt _ _)
  case subw => exact opImmW_of_ofInt hw (aluSub_ofInt _ _)
  case sllw => exact opImmW_of_ofInt hw (aluSll_ofInt _ _)
  case srlw => exact opImmW_of_ofInt hw (aluSrl_ofInt _ _)
  case sraw => exact opImmW_of_ofInt hw (aluSra_ofInt _ _)

end Sys2Proof.Machine
end

section
/-! PROOFS. Multiplication and division as exact integer results, their corners, and what a pair of results rebuilds
(43_m.md R311 to R328). -/

namespace Sys2Proof.Machine

/-! ### The high halves of a product -/

theorem aluMulh_ofInt {w : Nat} (a b : BitVec w) : aluMulh w a b = BitVec.ofInt w (a.toInt * b.toInt / 2 ^ w) := by
  rw [aluMulh, Nat.cast_pow, Nat.cast_ofNat]

theorem aluMulhsu_ofInt {w : Nat} (a b : BitVec w) :
    aluMulhsu w a b = BitVec.ofInt w (a.toInt * b.toNat / 2 ^ w) := by
  rw [aluMulhsu, Nat.cast_pow, Nat.cast_ofNat]

/-! ### Multiplication and division at every operand -/

/-- Settles O20: each result is the operation's exact integer result at the XLEN-bit or 32-bit values. -/
theorem multiplyResults : Obligations.MultiplyResults := by
  intro s rd rs1 rs2
  simp only [State.intX_eq, State.natX_eq, intW_eq]
  refine ⟨?mul, ?mulh, ?mulhsu, ?mulhu, ?mulw⟩ <;> intro hw
  case mul => exact opImm_of_ofInt hw (aluMul_ofInt _ _)
  case mulh => exact opImm_of_ofInt hw (aluMulh_ofInt _ _)
  case mulhsu => exact opImm_of_ofInt hw (aluMulhsu_ofInt _ _)
  case mulhu => exact opImm_of_ofInt hw (aluMulhu_ofInt _ _)
  case mulw => exact opImmW_of_ofInt hw (aluMul_ofInt _ _)

/-- Settles O21: as O20; the computations answer for a zero divisor themselves. -/
theorem divideResults : Obligations.DivideResults := by
  intro s rd rs1 rs2
  simp only [State.intX_eq, State.natX_eq, intW_eq, natW_eq]
  refine ⟨?div, ?divu, ?rem, ?remu, ?divw, ?divuw, ?remw, ?remuw⟩ <;> intro hw
  case div => exact opImm_of_ofInt hw (aluDiv_ofInt _ _)
  case divu => exact opImm_of_ofInt hw (aluDivu_ofInt _ _)
  case rem => exact opImm_of_ofInt hw (aluRem_ofInt _ _)
  case remu => exact opImm_of_ofInt hw (aluRemu_ofInt _ _)
  case divw => exact opImmW_of_ofInt hw (aluDiv_ofInt _ _)
  case divuw => exact opImmW_of_ofInt hw (aluDivu_ofInt _ _)
  case remw => exact opImmW_of_ofInt hw (aluRem_ofInt _ _)
  case remuw => exact opImmW_of_ofInt hw (aluRemu_ofInt _ _)

/-! ### The corners -/

section Corners

variable {s : State} {r : Reg}

theorem State.intX_eq_zero (h : s.natX r = 0) : s.intX r = 0 := by
  rw [State.natX_eq, ← BitVec.toNat_zero, BitVec.toNat_inj] at h
  rw [State.intX_eq, h, BitVec.toInt_zero]

theorem State.intW_eq_zero (h : s.natW r = 0) : s.intW r = 0 := by
  rw [natW_eq, ← BitVec.toNat_zero, BitVec.toNat_inj] at h
  rw [intW_eq, h, BitVec.toInt_zero]

/-- A register keeps of an integer result its value modulo 2^XLEN. -/
theorem State.afterX_ofInt_congr {v w : Int} (h : v ≡ w [ZMOD 2 ^ s.cfg.xlen]) (len : Nat) :
    s.afterX r (.ofInt 64 v) len = s.afterX r (.ofInt 64 w) len :=
  s.afterX_congr r (s.cfg.truncate_ofInt_congr h) len

/-- -1 and all ones are one value of `n` bits. -/
theorem neg_one_modEq_allOnes (n : Nat) : -1 ≡ 2 ^ n - 1 [ZMOD 2 ^ n] :=
  Int.modEq_iff_dvd.2 ⟨1, by ring⟩

/-- The signed overflow: the quotient of the least `n`-bit integer by -1 wraps to that integer. -/
theorem overflow_tdiv_modEq {n : Nat} (h : 0 < n) :
    (-(2 ^ (n - 1)) : Int).tdiv (-1) ≡ -(2 ^ (n - 1)) [ZMOD 2 ^ n] := by
  obtain ⟨k, rfl⟩ := Nat.exists_eq_add_of_lt h
  refine Int.modEq_iff_dvd.2 ⟨-1, ?_⟩
  simp only [Int.tdiv_neg, Int.tdiv_one, Nat.zero_add, Nat.add_sub_cancel]
  ring

end Corners

/-- Settles O22: each corner is O21 at its operands. The values named there agree modulo 2^XLEN by the lemmas above, and
modulo 2^32, where both are numerals, by evaluation. -/
theorem divisionCornersAreDefined : Obligations.DivisionCornersAreDefined := by
  intro s rd rs1 rs2
  obtain ⟨hdiv, hdivu, hrem, hremu, hdivw, hdivuw, hremw, hremuw⟩ := divideResults s rd rs1 rs2
  refine ⟨fun h0 => ?zeroX, fun h0 => ?zeroW, fun ha hb => ?overflowX, fun ha hb => ?overflowW⟩
  case zeroX =>
    simp only [h0, State.intX_eq_zero h0, Nat.cast_zero, if_true] at hdiv hdivu hrem hremu
    refine ⟨fun hw => (hdivu hw).trans ?_, hremu, hdiv, hrem⟩
    rw [State.afterX_ofInt_congr (neg_one_modEq_allOnes _)]
  case zeroW =>
    simp only [h0, State.intW_eq_zero h0, Nat.cast_zero, if_true] at hdivw hdivuw hremw hremuw
    exact ⟨hdivuw, hremuw, hdivw, hremw⟩
  case overflowX =>
    have hpos : 0 < s.cfg.xlen := lt_of_lt_of_le (by decide) s.cfg.le_xlen
    simp only [ha, hb] at hdiv hrem
    refine ⟨fun hw => (hdiv hw).trans ?_, fun hw => (hrem hw).trans ?_⟩
    · rw [if_neg (by decide), State.afterX_ofInt_congr (overflow_tdiv_modEq hpos)]
    · rw [if_neg (by decide), Int.tmod_neg, Int.tmod_one]
  case overflowW =>
    simp only [ha, hb] at hdivw hremw
    exact ⟨hdivw, hremw⟩

/-! ### What two results rebuild -/

theorem State.natX_lt (s : State) (r : Reg) : s.natX r < 2 ^ s.cfg.xlen := Nat.mod_lt _ (by positivity)

theorem State.intX_modEq (s : State) (r : Reg) : s.intX r ≡ s.natX r [ZMOD 2 ^ s.cfg.xlen] := by
  rw [← s.intX_emod r]; exact (Int.mod_modEq _ _).symm

/-- A written register holds the integer result modulo 2^XLEN. -/
theorem State.natX_afterX_ofInt (s : State) {rd : Reg} (h : rd ≠ 0#5) (v : Int) (len : Nat) :
    ((s.afterX rd (.ofInt 64 v) len).natX rd : Int) = v % 2 ^ s.cfg.xlen := by
  have hread : (s.afterX rd (.ofInt 64 v) len).readX rd = s.cfg.truncate (.ofInt 64 v) := by
    simp [State.readX, State.afterX, State.afterLink, h]
  have hlow : (s.afterX rd (.ofInt 64 v) len).natX rd = (s.cfg.lowBits (.ofInt 64 v)).toNat := by
    rw [State.natX_eq, hread]; exact congrArg BitVec.toNat (s.cfg.lowBits_truncate _)
  rw [hlow, s.cfg.lowBits_ofInt, BitVec.toNat_ofInt, Int.toNat_of_nonneg (Int.emod_nonneg _ (by positivity))]
  norm_cast

/-- The register that a completing instruction has written. -/
theorem natX_of_exec {i : Instr} {s t : State} {rd : Reg} {v : Int} {len : Nat}
    (hi : exec i s = .next (s.afterX rd (.ofInt 64 v) len)) (ht : exec i s = .next t) (h : rd ≠ 0#5) :
    (t.natX rd : Int) = v % 2 ^ s.cfg.xlen := by
  obtain rfl := Host.Outcome.next.inj (hi.symm.trans ht)
  exact s.natX_afterX_ofInt h v len

/-- The high half of a product and its low half, each modulo 2^n, are the product. -/
theorem high_mul_add_low {n a b : Nat} (ha : a < 2 ^ n) (hb : b < 2 ^ n) :
    ((a * b / 2 ^ n : Nat) : Int) % 2 ^ n * 2 ^ n + (a * b : Int) % 2 ^ n = a * b := by
  have hhigh : a * b / 2 ^ n % 2 ^ n = a * b / 2 ^ n :=
    Nat.mod_eq_of_lt (Nat.div_lt_of_lt_mul (Nat.mul_lt_mul'' ha hb))
  exact_mod_cast (congrArg (· * 2 ^ n + a * b % 2 ^ n) hhigh).trans (Nat.div_add_mod' _ _)

/-- The quotient and the remainder of R311 and R320 rebuild the dividend, a zero divisor included. -/
theorem quotient_mul_add_remainder (a b : Int) :
    (if b = 0 then -1 else a.tdiv b) * b + (if b = 0 then a else a.tmod b) = a := by
  split
  case isTrue h => rw [h, mul_zero, zero_add]
  case isFalse => exact Int.tdiv_mul_add_tmod a b

/-- Results `q` and `r` that are a quotient and a remainder modulo 2^XLEN rebuild the dividend there, whichever integer
each operand is read as. -/
theorem State.rebuilds_dividend (s : State) {rs1 rs2 : Reg} {a b : Int} {q r : Nat}
    (ha : a ≡ s.natX rs1 [ZMOD 2 ^ s.cfg.xlen]) (hb : b ≡ s.natX rs2 [ZMOD 2 ^ s.cfg.xlen])
    (hq : (q : Int) = (if b = 0 then -1 else a.tdiv b) % 2 ^ s.cfg.xlen)
    (hr : (r : Int) = (if b = 0 then a else a.tmod b) % 2 ^ s.cfg.xlen) :
    (q * s.natX rs2 + r) % 2 ^ s.cfg.xlen = s.natX rs1 := by
  have hmod : ((q * s.natX rs2 + r : Nat) : Int) ≡ s.natX rs1 [ZMOD (2 ^ s.cfg.xlen : Nat)] := by
    push_cast
    rw [hq, hr]
    calc _ ≡ (if b = 0 then -1 else a.tdiv b) * b + (if b = 0 then a else a.tmod b) [ZMOD 2 ^ s.cfg.xlen] :=
          ((Int.mod_modEq _ _).mul hb.symm).add (Int.mod_modEq _ _)
      _ = a := quotient_mul_add_remainder a b
      _ ≡ s.natX rs1 [ZMOD 2 ^ s.cfg.xlen] := ha
  exact (Int.natCast_modEq_iff.1 hmod).trans (Nat.mod_eq_of_lt (s.natX_lt rs1))

/-- Settles O23: O20 and O21 give the two registers modulo 2^XLEN. -/
theorem productAndQuotientRebuildOperands : Obligations.ProductAndQuotientRebuildOperands := by
  intro s t u r1 r2 rs1 rs2 h1 h2
  obtain ⟨hmul, -, -, -, -⟩ := multiplyResults s r2 rs1 rs2
  obtain ⟨-, -, -, hmulhu, -⟩ := multiplyResults s r1 rs1 rs2
  obtain ⟨hdiv, hdivu, -, -, -⟩ := divideResults s r1 rs1 rs2
  obtain ⟨-, -, hrem, hremu, -⟩ := divideResults s r2 rs1 rs2
  refine ⟨fun hw ht hw' hu => ?product, fun hw ht hw' hu => ?unsigned, fun hw ht hw' hu => ?signed⟩
  case product =>
    have hhigh := natX_of_exec (hmulhu hw) ht h1
    have hlow := natX_of_exec (hmul hw') hu h2
    rw [((s.intX_modEq rs1).mul (s.intX_modEq rs2)).eq] at hlow
    have hsum := high_mul_add_low (s.natX_lt rs1) (s.natX_lt rs2)
    rw [← hhigh, ← hlow] at hsum
    exact_mod_cast hsum
  case unsigned => exact s.rebuilds_dividend rfl rfl (natX_of_exec (hdivu hw) ht h1) (natX_of_exec (hremu hw') hu h2)
  case signed =>
    exact s.rebuilds_dividend (s.intX_modEq rs1) (s.intX_modEq rs2) (natX_of_exec (hdiv hw) ht h1)
      (natX_of_exec (hrem hw') hu h2)

end Sys2Proof.Machine
end

section
/-! PROOFS. LR, SC and the AMOs whose checks pass (44_a.md R332 to R359; 21_memory_model.md R104, R126). -/

namespace Sys2Proof.Machine

/-! ### Reservation sets (44_a.md R333) -/

/-- An address of a span of the set is in the set. -/
theorem any_holds_of_mem {l : List Span} {p : Span} (hp : p ∈ l) (c : Config) {j : Nat} (hj : j < p.size) :
    l.any (fun q => q.holds c ((p.base + j) % 2 ^ c.xlen)) = true :=
  List.any_eq_true.2 ⟨p, hp, (Span.holds_iff p c _).2 ⟨j, hj, Nat.mod_mod _ _⟩⟩

theorem reserve_set (c : Config) (ea : Word) (n : Nat) :
    (reserve c ea n).set = ⟨ea.toNat, n⟩ :: extraSpans c ea n := rfl

theorem extraSpans_exact {c : Config} (h : c.reservationSet = .exact) (ea : Word) (n : Nat) :
    extraSpans c ea n = [] := by
  simp only [extraSpans, h]

theorem extraSpans_block {c : Config} {k : Nat} (h : c.reservationSet = .block k) (ea : Word) (n : Nat) :
    extraSpans c ea n = [⟨ea.toNat / 2 ^ k * 2 ^ k, 2 ^ k⟩] := by
  simp only [extraSpans, h]

theorem mem_extraSpans_table {c : Config} {rules : List ReservationRule} (h : c.reservationSet = .table rules)
    {ea : Word} {n : Nat} {p : Span} :
    p ∈ extraSpans c ea n ↔
      ∃ u ∈ rules, (u.width = n ∧ u.base ≤ ea.toNat ∧ ea.toNat < u.base + u.size) ∧ p ∈ u.extra := by
  simp [extraSpans, h, and_assoc]

/-! ### The loop after an LR (44_a.md R346) -/

/-- The loop that an LR to `n` bytes at `ea` enters. -/
def State.enteredLoop (s : State) (ea : Word) (n : Nat) : RetryLoop :=
  { lrPc := s.pc, ea := ea, n := n, first := s.pc, last := s.pc, retrying := false, failures := 0,
    patience := Config.scPatience s.draws }

/-- The LR at `pc` repeats the loop `m`: its SC has failed, and it is one of at most 16 instructions. -/
def State.Repeats (s : State) (m : RetryLoop) : Prop :=
  m.retrying = true ∧ m.lrPc = s.pc ∧
    s.sequential (m.reach s.cfg s.pc).last 16 (m.reach s.cfg s.pc).first = true

section LoopAfterLr

variable {s : State} {ea : Word} {n : Nat}

theorem State.loopAfterLr_of_not_eventual (h : eventual s.cfg ea n = false) : s.loopAfterLr ea n = none := by
  simp [State.loopAfterLr, h]

theorem State.loopAfterLr_of_no_loop (h : eventual s.cfg ea n = true) (hl : s.loop = none) :
    s.loopAfterLr ea n = some (s.enteredLoop ea n) := by
  simp [State.loopAfterLr, h, hl, State.enteredLoop]

theorem State.loopAfterLr_of_repeats (h : eventual s.cfg ea n = true) {m : RetryLoop} (hl : s.loop = some m)
    (hm : s.Repeats m) :
    s.loopAfterLr ea n = some { m.reach s.cfg s.pc with ea := ea, n := n, retrying := false } := by
  obtain ⟨hretry, hpc, hseq⟩ := hm
  simp [State.loopAfterLr, h, hl, hretry, hpc, hseq]

theorem State.loopAfterLr_of_not_repeats (h : eventual s.cfg ea n = true) {m : RetryLoop} (hl : s.loop = some m)
    (hm : ¬ s.Repeats m) : s.loopAfterLr ea n = some (s.enteredLoop ea n) := by
  have hno : (m.retrying && m.lrPc == s.pc &&
      s.sequential (m.reach s.cfg s.pc).last 16 (m.reach s.cfg s.pc).first) = false := by
    rw [Bool.eq_false_iff]
    intro hall
    simp only [Bool.and_eq_true, beq_iff_eq, and_assoc] at hall
    exact hm hall
  simp [State.loopAfterLr, h, hl, hno, State.enteredLoop]

/-- In memory with the eventuality property an LR is in a loop, whose count and patience are those of the loop it
repeats. -/
theorem State.loopAfterLr_of_eventual (h : eventual s.cfg ea n = true) :
    ∃ l, s.loopAfterLr ea n = some l ∧ l.lrPc = s.pc ∧ l.ea = ea ∧ l.n = n ∧ l.retrying = false ∧
      (s.loop = none → l.failures = 0) ∧
      ∀ m, s.loop = some m → s.Repeats m → l.failures = m.failures ∧ l.patience = m.patience := by
  cases hl : s.loop with
  | none => exact ⟨_, State.loopAfterLr_of_no_loop h hl, rfl, rfl, rfl, rfl, fun _ => rfl, nofun⟩
  | some m =>
    by_cases hm : s.Repeats m
    · have ⟨_, hpc, _⟩ := hm
      refine ⟨_, State.loopAfterLr_of_repeats h hl hm, hpc, rfl, rfl, rfl, nofun, ?_⟩
      rintro _ ⟨⟩ -
      exact ⟨rfl, rfl⟩
    · refine ⟨_, State.loopAfterLr_of_not_repeats h hl hm, rfl, rfl, rfl, rfl, fun _ => rfl, ?_⟩
      rintro _ ⟨⟩ hm'
      exact absurd hm' hm

end LoopAfterLr

/-- Settles O38: both widths of LR are `loadReserved`, followed by `loopAfterLr`. -/
theorem loadReservedResults : Obligations.LoadReservedResults := by
  intro s rd rs1 aq rl target go
  have holds : ∀ (i : Instr) (n : Nat), i.ilen = 4 → exec i s = legal i s (loadReserved i n rd rs1 s) →
      s.loopAfter i target = s.loopAfterLr (s.readX rs1) n → go i n := by
    intro i n hlen hexec hloop
    dsimp -zeta only [go]
    intro ea r inSet
    refine ⟨fun hw hf => ?result, rfl, rfl, covers_reserve s.cfg ea n, fun hset a ha => ?exact,
      fun k hset j hj => ?block, fun rules u p hset hu hwidth hbase hsize hp j hj => ?table, fun hev => ?noLoop,
      fun hev => ?loop⟩
    case result => rw [hexec, legal_of_wf i s hw, loadReserved_of_ok i s hf rd, hlen]
    case exact =>
      have hin : inSet a ↔ Span.holds ⟨ea.toNat, n⟩ s.cfg a = true := by
        simp only [inSet, r, reserve_set, extraSpans_exact hset, List.any_cons, List.any_nil, Bool.or_false]
      rw [hin, Span.holds_iff, Nat.mod_eq_of_lt ha]
    case block =>
      have hmem : ⟨ea.toNat / 2 ^ k * 2 ^ k, 2 ^ k⟩ ∈ r.set := by
        rw [reserve_set, extraSpans_block hset]
        exact List.mem_cons_of_mem _ (List.mem_singleton_self _)
      exact any_holds_of_mem hmem s.cfg hj
    case table =>
      have hmem : p ∈ r.set :=
        List.mem_cons_of_mem _ ((mem_extraSpans_table hset).2 ⟨u, hu, ⟨hwidth, hbase, hsize⟩, hp⟩)
      exact any_holds_of_mem hmem s.cfg hj
    case noLoop => rw [hloop, State.loopAfterLr_of_not_eventual hev]
    case loop =>
      obtain ⟨l, hl, hpc, hea, hn, hretry, hnone, hrep⟩ := State.loopAfterLr_of_eventual hev
      exact ⟨l, hloop.trans hl, hpc, hea, hn, hretry, hnone, fun m hm h1 h2 h3 => hrep m hm ⟨h1, h2, h3⟩⟩
  exact ⟨holds _ 4 rfl rfl rfl, holds _ 8 rfl rfl rfl⟩

/-! ### SC (44_a.md R334, R335, R341, R343, R346) -/

section StoreConditional

variable {s : State} {ea : Word} {n : Nat}

theorem State.reserved_iff :
    s.reserved ea n = true ↔ ∃ r : Reservation, s.reservation = some r ∧ r.covers s.cfg ea n = true := by
  unfold State.reserved
  cases s.reservation with
  | none => simp
  | some r => simp

/-- An oracle is drawn once, whatever it answers. -/
theorem State.scMayFail_oracle (h : s.cfg.scMayFail = .oracle) :
    (s.scMayFail ea n).2 = { s with draws := s.draws + 1 } := by
  unfold State.scMayFail
  rw [h]

theorem State.scSucceeds_of_not_reserved (h : ¬ s.reserved ea n = true) : ¬ s.scSucceeds ea n = true := by
  unfold State.scSucceeds
  simp [h]

/-- The loops whose SC must succeed (44_a.md R346). -/
theorem State.scMustSucceed_of_loop {l : RetryLoop} (hl : s.loop = some l) (hretry : l.retrying = false)
    (hea : l.ea = ea) (hn : l.n = n) (hp : l.patience < l.failures)
    (hseq : s.sequential (l.reach s.cfg s.pc).last 16 (l.reach s.cfg s.pc).first = true) :
    s.scMustSucceed ea n = true := by
  simp [State.scMustSucceed, hl, hretry, hea, hn, hp, hseq]

/-- A failed SC to the address and size of its LR is counted. -/
theorem State.loopAfterSc_of_failed {l : RetryLoop} (hl : s.loop = some l) (hretry : l.retrying = false)
    (hea : l.ea = ea) (hn : l.n = n) (hfail : ¬ s.scSucceeds ea n = true) :
    s.loopAfterSc ea n = some { l.reach s.cfg s.pc with retrying := true, failures := l.failures + 1 } := by
  simp [State.loopAfterSc, hl, hretry, hea, hn, hfail]

end StoreConditional

/-- A legal SC_FAIL_CODE is not zero in XLEN bits (44_a.md R341; 92_eei_decisions.md D12). -/
theorem truncate_scFailCode_ne_zero {c : Config} (h : c.legal = true) : c.truncate c.scFailCode ≠ 0#64 := by
  have hmod : c.scFailCode.toNat % 2 ^ c.xlen ≠ 0 := by
    simp only [Config.legal, Bool.and_eq_true, bne_iff_ne] at h
    exact h.2
  rw [← c.truncate_toNat] at hmod
  intro hz
  exact hmod (congrArg BitVec.toNat hz)

/-- Settles O39: both widths of SC are `storeConditional`, followed by `loopAfterSc`; a reservation that covers the
bytes is needed for success, and is enough where nothing may fail the SC. -/
theorem storeConditionalResults : Obligations.StoreConditionalResults := by
  refine ⟨fun s rd rs1 rs2 aq rl => ?_, fun c => truncate_scFailCode_ne_zero, rfl⟩
  intro go
  have holds : ∀ (i : Instr) (n : Nat), i.ilen = 4 → exec i s = legal i s (storeConditional i n rd rs1 rs2 s) →
      (∀ target, s.loopAfter i target = s.loopAfterSc (s.readX rs1) n) → go i n := by
    intro i n hlen hexec hloop
    dsimp -zeta only [go]
    intro ea won lost drawn covered hw hf
    have hcov : covered ↔ s.reserved ea n = true := State.reserved_iff.symm
    have result : exec i s = .next
        (if s.scSucceeds ea n = true then won (s.scMayFail ea n).2 else lost (s.scMayFail ea n).2) := by
      rw [hexec, legal_of_wf i s hw, storeConditional_of_ok i s hf rd rs2, hlen]
    refine ⟨fun hnever => ?never, fun horacle => ?oracle⟩
    case never =>
      obtain ⟨hsucc, hstate⟩ := s.scSucceeds_never hnever ea n
      rw [result, hsucc, hstate, hcov]
      exact ⟨fun h => by rw [if_pos h], fun h => by rw [if_neg h]⟩
    case oracle =>
      rw [State.scMayFail_oracle horacle] at result
      have wins : s.scSucceeds ea n = true → exec i s = .next (won drawn) := fun h => by rw [result, if_pos h]
      have loses : ¬ s.scSucceeds ea n = true → exec i s = .next (lost drawn) := fun h => by rw [result, if_neg h]
      refine ⟨fun hc => loses (State.scSucceeds_of_not_reserved (mt hcov.2 hc)), fun _ => ?_,
        fun l hl hretry hea hn => ⟨fun hc hp hseq => ?must, fun _ hnot target => ?counted⟩⟩
      · by_cases h : s.scSucceeds ea n = true
        · exact .inl (wins h)
        · exact .inr (loses h)
      case must =>
        have hmust := State.scMustSucceed_of_loop hl hretry hea hn hp hseq
        exact wins ((s.scSucceeds_of_must hmust).trans (hcov.1 hc))
      case counted => rw [hloop, State.loopAfterSc_of_failed hl hretry hea hn (mt wins hnot)]
  exact ⟨holds _ 4 rfl rfl fun _ => rfl, holds _ 8 rfl rfl fun _ => rfl⟩

/-! ### SC and the reservation (44_a.md R335) -/

theorem State.memWrite_status (s : State) (ea : Word) (n : Nat) (v : BitVec (8 * n)) (w : Bool) :
    (s.memWrite ea n v w).status = s.status := by
  obtain ⟨_, _, _, _, h⟩ := s.memWrite_eq ea n v w
  rw [h]

theorem State.scMayFail_status (s : State) (ea : Word) (n : Nat) : (s.scMayFail ea n).2.status = s.status := by
  rw [State.scMayFail_snd]

/-- An SC of either width completes with no reservation held, or traps with the reservation as it was. -/
theorem storeConditional_reservation {i : Instr} {s t : State} {n : Nat} {rd rs1 rs2 : Reg}
    (h : legal i s (storeConditional i n rd rs1 rs2 s) = .next t) :
    (t.status = s.status ∧ t.reservation = none) ∨ (t.status ≠ .running ∧ t.reservation = s.reservation) := by
  obtain ⟨-, h⟩ | ⟨-, rfl⟩ := legal_cases h
  · cases hf : atomicFault s.cfg .write (s.readX rs1) n with
    | some cause =>
      rw [storeConditional_of_fault i s hf] at h
      cases h
      exact .inr ⟨nofun, rfl⟩
    | none =>
      rw [storeConditional_of_ok i s hf] at h
      cases h
      left
      split
      · exact ⟨(State.memWrite_status _ _ _ _ _).trans (s.scMayFail_status _ _), rfl⟩
      · exact ⟨s.scMayFail_status _ _, rfl⟩
  · exact .inr ⟨nofun, rfl⟩

/-- Settles O40: an SC completes or traps, and the status says which. -/
theorem storeConditionalClearsReservation : Obligations.StoreConditionalClearsReservation := by
  intro s t rd rs1 rs2 aq rl hr h
  obtain ⟨hstatus, hnone⟩ | ⟨hstatus, hkept⟩ := h.elim storeConditional_reservation storeConditional_reservation
  · exact ⟨fun _ => hnone, fun ht => absurd (hstatus.trans hr) ht⟩
  · exact ⟨fun ht => absurd ht hstatus, fun _ => hkept⟩

/-! ### AMOs (44_a.md R350 to R359) -/

/-! The computations, as comparisons of integers. -/

section Computations

variable {w : Nat} (old src : BitVec w)

theorem amoMin_eq : amoMin old src = if old.toInt < src.toInt then old else src := by
  simp only [amoMin, BitVec.slt_iff_toInt_lt]

theorem amoMinu_eq : amoMinu old src = if old.toNat < src.toNat then old else src := by
  simp only [amoMinu, BitVec.ult_iff_toNat_lt]

/-- The model keeps the old value and the statement takes the source where the two are equal. -/
theorem amoMax_eq : amoMax old src = if old.toInt > src.toInt then old else src := by
  simp only [amoMax, BitVec.slt_iff_toInt_lt]
  obtain h | h | h := lt_trichotomy old.toInt src.toInt
  · rw [if_pos h, if_neg h.not_gt]
  · rw [BitVec.eq_of_toInt_eq h, ite_self]
  · rw [if_neg h.not_gt, if_pos h]

theorem amoMaxu_eq : amoMaxu old src = if old.toNat > src.toNat then old else src := by
  simp only [amoMaxu, BitVec.ult_iff_toNat_lt]
  obtain h | h | h := lt_trichotomy old.toNat src.toNat
  · rw [if_pos h, if_neg h.not_gt]
  · rw [BitVec.eq_of_toNat_eq h, ite_self]
  · rw [if_neg h.not_gt, if_pos h]

end Computations

/-- An AMO whose bytes lie in the granule number `k` is one memory operation (21_memory_model.md R126). -/
theorem amoWhole_of_granule {c : Config} {ea : Word} {n k : Nat} {g : AtomicGranule} (hn : 0 < n)
    (hg : g ∈ c.atomicGranules) (hspace : g.base + g.size ≤ 2 ^ c.xlen) (hlow : g.base + k * g.bytes ≤ ea.toNat)
    (hhigh : ea.toNat + n ≤ g.base + (k + 1) * g.bytes) (hsize : ea.toNat + n ≤ g.base + g.size) :
    amoWhole c ea n = true := by
  refine List.any_eq_true.2 ⟨g, hg, (AtomicGranule.holds_iff (by omega) (by omega)).2 ⟨hsize, ?_⟩⟩
  rw [Nat.add_one_mul] at hhigh
  have hoffset : (ea.toNat - g.base) % g.bytes = ea.toNat - g.base - k * g.bytes := by
    rw [show ea.toNat - g.base = ea.toNat - g.base - k * g.bytes + k * g.bytes by omega, Nat.add_mul_mod_self_right,
      Nat.mod_eq_of_lt (by omega), Nat.add_sub_cancel]
  omega

/-- Settles O41: every AMO is `amo` with its computation, and a granule makes it one operation. -/
theorem amoResults : Obligations.AmoResults := by
  refine ⟨fun s rd rs1 rs2 aq rl => ?_, fun s ea n k g hn hg hspace hlow hhigh hsize => ?_, fun c ea n hc => ?_⟩
  · intro go
    have holds : ∀ (i : Instr) (n : Nat) (op op' : BitVec (8 * n) → BitVec (8 * n) → BitVec (8 * n)),
        i.ilen = 4 → exec i s = legal i s (amo i n op rd rs1 rs2 s) → (∀ old src, op old src = op' old src) →
        go i n op' := by
      intro i n op op' hlen hexec hop hw hf
      rw [hexec, legal_of_wf i s hw, amo_of_ok i s hf, hlen, hop]
    -- Opaque from here on, `go` unifies by its arguments.
    clear_value go
    exact ⟨holds _ 4 amoSwap _ rfl rfl fun _ _ => rfl, holds _ 8 amoSwap _ rfl rfl fun _ _ => rfl,
      holds _ 4 (aluAdd _) _ rfl rfl fun _ _ => rfl, holds _ 8 (aluAdd _) _ rfl rfl fun _ _ => rfl,
      holds _ 4 (aluXor _) _ rfl rfl fun _ _ => rfl, holds _ 8 (aluXor _) _ rfl rfl fun _ _ => rfl,
      holds _ 4 (aluAnd _) _ rfl rfl fun _ _ => rfl, holds _ 8 (aluAnd _) _ rfl rfl fun _ _ => rfl,
      holds _ 4 (aluOr _) _ rfl rfl fun _ _ => rfl, holds _ 8 (aluOr _) _ rfl rfl fun _ _ => rfl,
      holds _ 4 amoMin _ rfl rfl amoMin_eq, holds _ 8 amoMin _ rfl rfl amoMin_eq,
      holds _ 4 amoMax _ rfl rfl amoMax_eq, holds _ 8 amoMax _ rfl rfl amoMax_eq,
      holds _ 4 amoMinu _ rfl rfl amoMinu_eq, holds _ 8 amoMinu _ rfl rfl amoMinu_eq,
      holds _ 4 amoMaxu _ rfl rfl amoMaxu_eq, holds _ 8 amoMaxu _ rfl rfl amoMaxu_eq⟩
  · exact s.operations_of_indivisible (by rw [amoWhole_of_granule hn hg hspace hlow hhigh hsize, Bool.true_or])
  · rw [amoWhole, hc, List.any_nil]

end Sys2Proof.Machine
end

section
/-! PROOFS. Which CSR addresses exist and are read-only, and where the CSR instructions raise (10_state.md R34, R42 to
R44; 45_zicsr_counters.md R378). -/

namespace Sys2Proof.Machine

/-! ### The addresses -/

theorem counterPresent_iff {c : Config} {n : Nat} :
    counterPresent c n = true ↔ c.ext.counters = true ∧ (n < 3 ∨ (n < 32 ∧ n ∈ c.hpmcounters)) := by
  simp [counterPresent]

section Addresses

variable {c : Config} {a : BitVec 12}

/-- An address that names a CSR lies in one of the three ranges of R34: the views of `fcsr`, the counters, and on RV32
their high halves. -/
theorem csrAt_cases {r : Csr} (h : csrAt c a = some r) :
    (r.readOnly = false ∧ c.ext.f = true ∧ 0x001 ≤ a.toNat ∧ a.toNat ≤ 0x003) ∨
    (r.readOnly = true ∧ 0xC00 ≤ a.toNat ∧ counterPresent c (a.toNat - 0xC00) = true) ∨
    (r.readOnly = true ∧ c.is32 = true ∧ 0xC80 ≤ a.toNat ∧ counterPresent c (a.toNat - 0xC80) = true) := by
  simp only [csrAt] at h
  split_ifs at h with h1 hf h2 hf h3 hf hlow hp hhigh hp <;> cases h
  · exact .inl ⟨rfl, hf, by omega⟩
  · exact .inl ⟨rfl, hf, by omega⟩
  · exact .inl ⟨rfl, hf, by omega⟩
  · exact .inr (.inl ⟨rfl, hlow.1, hp⟩)
  · obtain ⟨h32, hp⟩ := Bool.and_eq_true_iff.1 hp
    exact .inr (.inr ⟨rfl, h32, hhigh.1, hp⟩)

/-- The read-only CSRs are those from 0xC00 on (10_state.md R34). -/
theorem readOnly_iff_of_csrAt {r : Csr} (h : csrAt c a = some r) : r.readOnly = true ↔ 0xC00 ≤ a.toNat := by
  obtain ⟨hro, -, -, hle⟩ | ⟨hro, hle, -⟩ | ⟨hro, -, hle, -⟩ := csrAt_cases h
  · rw [hro]; exact ⟨nofun, by omega⟩
  · exact iff_of_true hro hle
  · exact iff_of_true hro (by omega)

/-- An address at or above `base` is `base` plus its distance from there. -/
theorem ofNat_add_sub_toNat {base : Nat} (h : base ≤ a.toNat) : BitVec.ofNat 12 (base + (a.toNat - base)) = a := by
  rw [Nat.add_sub_cancel' h, BitVec.ofNat_toNat, BitVec.setWidth_eq]

/-- The addresses that exist (10_state.md R34, R42 to R44). -/
theorem exists_csrAt_iff :
    (∃ r, csrAt c a = some r) ↔
      (c.ext.f = true ∧ 0x001 ≤ a.toNat ∧ a.toNat ≤ 0x003) ∨
      (0xC00 ≤ a.toNat ∧ counterPresent c (a.toNat - 0xC00) = true) ∨
      (c.is32 = true ∧ 0xC80 ≤ a.toNat ∧ counterPresent c (a.toNat - 0xC80) = true) := by
  constructor
  · rintro ⟨r, h⟩
    exact (csrAt_cases h).imp And.right (Or.imp And.right And.right)
  · rintro (⟨hf, hlow, hhigh⟩ | ⟨hle, hp⟩ | ⟨h32, hle, hp⟩)
    · have ha : a = 0x001#12 ∨ a = 0x002#12 ∨ a = 0x003#12 := by bv_omega
      obtain rfl | rfl | rfl := ha
      · exact ⟨_, csrAt_fflags hf⟩
      · exact ⟨_, csrAt_frm hf⟩
      · exact ⟨_, csrAt_fcsr hf⟩
    · exact ⟨_, ofNat_add_sub_toNat hle ▸ csrAt_counter hp⟩
    · exact ⟨_, ofNat_add_sub_toNat hle ▸ csrAt_counterHigh h32 hp⟩

end Addresses

/-! ### The instructions -/

section Forms

variable {i : Instr} {s : State} {rd : Reg} {csr : BitVec 12} {reads writes : Bool} {src : Word}
  {f : Word → Word → Word} (hexec : exec i s = legal i s (csrOp i rd csr reads writes src f s))
  (hw : i.wellFormed s.cfg = true)

include hexec hw

/-- The two illegal cases of 45_zicsr_counters.md R378. -/
theorem exec_csr_illegal
    (h : (¬ ∃ r, csrAt s.cfg csr = some r) ∨ (writes = true ∧ 0xC00 ≤ csr.toNat)) :
    exec i s = .next (s.trap .illegalInstruction (encode i).bits i.ilen) := by
  rw [hexec, legal_of_wf i s hw]
  cases ha : csrAt s.cfg csr with
  | none => exact csrOp_of_absent i s ha rd reads writes src f
  | some r =>
    obtain habsent | ⟨hwrites, hle⟩ := h
    · exact absurd ⟨r, ha⟩ habsent
    · have hro : r.readOnly = true := (readOnly_iff_of_csrAt ha).2 hle
      exact csrOp_of_read_only i s ha (by rw [hwrites, hro, Bool.and_self]) rd reads src f

/-- A CSR instruction that is not illegal raises nothing: its reads and its write leave the status. -/
theorem exec_csr_completes (h : ∃ r, csrAt s.cfg csr = some r) (hok : ¬ (writes = true ∧ 0xC00 ≤ csr.toNat)) :
    ∃ t : State, exec i s = .next t ∧ t.status = s.status := by
  obtain ⟨r, ha⟩ := h
  have hallowed : (writes && r.readOnly) = false := by
    rwa [← readOnly_iff_of_csrAt ha, ← Bool.and_eq_true, Bool.not_eq_true] at hok
  have hwrite : ∀ (u : State) (v : Word), (u.csrWrite r v).status = u.status := fun u v => by rw [State.csrWrite_eq]
  have hread : (s.csrRead r).2.status = s.status := by rw [State.csrRead_snd]
  refine ⟨_, by rw [hexec, legal_of_wf i s hw, csrOp_of_ok i s ha hallowed], ?_⟩
  cases reads with
  | true =>
    cases writes with
    | true => exact (hwrite _ _).trans hread
    | false => exact hread
  | false =>
    cases writes with
    | true => exact hwrite _ _
    | false => rfl

end Forms

/-- Settles O44: every form is `csrOp` with its own condition to write, and the addresses that exist are those that name
a CSR. -/
theorem csrInstructionsRaiseIllegal : Obligations.CsrInstructionsRaiseIllegal := by
  intro s rd rs1 uimm csr hr n counter exist go
  have hexist : exist ↔ ∃ r, csrAt s.cfg csr = some r := by
    rw [exists_csrAt_iff]
    simp only [exist, counter, n, counterPresent_iff, and_left_comm]
  have form : ∀ {i : Instr} {reads writes : Bool} {P : Prop} {src : Word} {f : Word → Word → Word}, i.ilen = 4 →
      exec i s = legal i s (csrOp i rd csr reads writes src f s) → (writes = true ↔ P) → go i P := by
    intro i reads writes P src f hlen hexec hP hw
    rw [hexist, ← hP, ← hlen]
    refine ⟨exec_csr_illegal hexec hw, fun h hok => ?_⟩
    obtain ⟨t, ht, hstatus⟩ := exec_csr_completes hexec hw h hok
    exact ⟨t, ht, hstatus.trans hr⟩
  exact ⟨form rfl rfl (iff_of_true rfl trivial), form rfl rfl bne_iff_ne, form rfl rfl bne_iff_ne,
    form rfl rfl (iff_of_true rfl trivial), form rfl rfl bne_iff_ne, form rfl rfl bne_iff_ne⟩

end Sys2Proof.Machine
end

section
/-! PROOFS. The moves between the register files, the floating-point loads and stores, and sign injection (46_f.md R411,
R412, R424 to R426, R439, R440; 47_d.md R453). None of them computes with a value. -/

namespace Sys2Proof.Machine

/-! ### Moves -/

section Moves

variable {i : Instr} {s : State} (hw : i.wellFormed s.cfg = true) (F : Fmt) (rd rs1 : Reg)

include hw

theorem fpMoveToX_of_wf :
    fpMoveToX i F rd rs1 s = .next (s.afterX rd ((s.rawFp F rs1).signExtend 64) i.ilen) := by
  rw [fpMoveToX, legal_of_wf i s hw, retire_writeX]

theorem fpMoveFromX_of_wf :
    fpMoveFromX i F rd rs1 s = .next (s.afterF rd (box s.cfg F ((s.readX rs1).setWidth F.width)) i.ilen) := by
  rw [fpMoveFromX, legal_of_wf i s hw]; rfl

end Moves

/-- Settles O52: the moves are `fpMoveToX` and `fpMoveFromX` in the two narrower formats; at 64 bits neither the sign
extension nor the narrowing does anything. -/
theorem moveResults : Obligations.MoveResults := by
  intro s rd rs1 ok
  refine ⟨?fmvXW, ?fmvXD, ?fmvWX, ?fmvDX⟩ <;> intro hw
  case fmvXW => exact fpMoveToX_of_wf hw .s rd rs1
  case fmvXD => exact BitVec.signExtend_eq ((s.readF rs1).setWidth 64) ▸ fpMoveToX_of_wf hw .d rd rs1
  case fmvWX => exact fpMoveFromX_of_wf hw .s rd rs1
  case fmvDX => exact BitVec.setWidth_eq (s.readX rs1) ▸ fpMoveFromX_of_wf hw .d rd rs1

/-! ### Loads and stores -/

section Accesses

variable {i : Instr} {s : State} {rd rs2 : Reg} {ea addr : Word} (F : Fmt) (he : ea = addr)
  (hw : i.wellFormed s.cfg = true)

include he hw

/-- A load in a format, at an effective address that is `addr` as the statement writes it. -/
theorem fpLoad_at (hf : dataFault s.cfg .read addr (F.width / 8) = none) :
    fpLoad i F rd ea s = .next ((s.memRead addr (F.width / 8)).2.afterF rd
      (box s.cfg F ((s.memRead addr (F.width / 8)).1.setWidth F.width)) i.ilen) := by
  subst he; exact fpLoad_of_ok i s hw F hf rd

/-- The same for a store. -/
theorem fpStore_at (hf : dataFault s.cfg .write addr (F.width / 8) = none) :
    fpStore i F rs2 ea s =
      .next ((s.memWrite addr (F.width / 8) ((s.readF rs2).setWidth (8 * (F.width / 8)))).afterPc
        (s.pcAfter i.ilen)) := by
  subst he; exact fpStore_of_ok i s hw F hf rs2

end Accesses

/-- Settles O31: every load is `fpLoad` and every store `fpStore` at its effective address. -/
theorem floatLoadStoreResults : Obligations.FloatLoadStoreResults := by
  intro s rd rs1 rs2 imm p q o5 o6 load store
  have ea := s.ea_eq rs1 imm
  exact ⟨fpLoad_at .s ea, fpLoad_at .d ea, fpLoad_at .q ea, fpLoad_at .s (s.eaScaled_word q.full o5),
    fpLoad_at .d (s.eaScaled_double q.full o5), fpLoad_at .s (s.eaScaled_word 2#5 o6),
    fpLoad_at .d (s.eaScaled_double 2#5 o6), fpStore_at .s ea, fpStore_at .d ea, fpStore_at .q ea,
    fpStore_at .s (s.eaScaled_word p.full o5), fpStore_at .d (s.eaScaled_double p.full o5),
    fpStore_at .s (s.eaScaled_word 2#5 o6), fpStore_at .d (s.eaScaled_double 2#5 o6)⟩

/-! ### Sign injection -/

theorem Fmt.withSign_msb (F : Fmt) (b : BitVec F.width) (neg : Bool) : (F.withSign b neg).msb = neg := by
  unfold Fmt.withSign
  split
  · assumption
  · rename_i h
    rw [(F.negate_bits b).1]
    exact Bool.not_eq.2 h

theorem Fmt.withSign_getLsbD (F : Fmt) (b : BitVec F.width) (neg : Bool) {k : Nat} (hk : k < F.width - 1) :
    (F.withSign b neg).getLsbD k = b.getLsbD k := by
  unfold Fmt.withSign
  split
  · rfl
  · exact (F.negate_bits b).2 k hk

/-- FSGNJ and its variants answer the first operand with the sign that `sign` computes (46_f.md R424 to R426). -/
theorem fpSign_of_wf {i : Instr} {s : State} (hw : i.wellFormed s.cfg = true) (F : Fmt) (sign : Bool → Bool → Bool)
    (rd rs1 rs2 : Reg) :
    ∃ v : BitVec F.width, fpSign i F sign rd rs1 rs2 s = .next (s.afterF rd (box s.cfg F v) i.ilen) ∧
      v.msb = sign (s.readFp F rs1).msb (s.readFp F rs2).msb ∧
      ∀ k < F.width - 1, v.getLsbD k = (s.readFp F rs1).getLsbD k :=
  ⟨_, by rw [fpSign, legal_of_wf i s hw, fpResult_eq, State.withFlags_none]; rfl, F.withSign_msb _ _,
    fun _ => F.withSign_getLsbD _ _⟩

/-- Settles O47: every form is `fpSign` with its own computation of the sign. -/
theorem signInjectionResults : Obligations.SignInjectionResults := by
  intro s rd rs1 rs2 go
  have form : ∀ {i : Instr} (F : Fmt) (sign : Bool → Bool → Bool), i.ilen = 4 →
      exec i s = fpSign i F sign rd rs1 rs2 s → go i F sign := by
    intro i F sign hlen hexec hw
    rw [hexec, ← hlen]
    exact fpSign_of_wf hw F sign rd rs1 rs2
  clear_value go -- `form` says all that is needed of it
  exact ⟨form .s _ rfl rfl, form .s _ rfl rfl, form .s _ rfl rfl, form .d _ rfl rfl, form .d _ rfl rfl,
    form .d _ rfl rfl, form .q _ rfl rfl, form .q _ rfl rfl, form .q _ rfl rfl⟩

end Sys2Proof.Machine
end

section
/-! PROOFS. What a floating-point pattern stands for, by its sign and its exponent and fraction fields (46_f.md R401,
R402); FCLASS, and arithmetic with a NaN operand, which look at the class alone (R406, R445). -/

namespace Sys2Proof.Machine

/-! ### The parameters of the formats -/

theorem Fmt.width_eq (F : Fmt) : F.width = F.expBits + F.fracBits + 1 := by cases F <;> rfl

/-- The exponent fields below the one of the infinities and NaNs are 0 to `2 * bias`. -/
theorem Fmt.two_pow_expBits (F : Fmt) : 2 ^ F.expBits = 2 * F.bias + 2 := by cases F <;> rfl

theorem Fmt.bias_pos (F : Fmt) : 0 < F.bias := by cases F <;> decide

/-- The sign bit of a pattern counts `2 ^ expBits * 2 ^ fracBits`. -/
theorem Fmt.two_pow_signBit (F : Fmt) : 2 ^ (F.width - 1) = 2 ^ F.expBits * 2 ^ F.fracBits := by
  rw [F.width_eq, Nat.add_sub_cancel, pow_add]

theorem Fmt.two_pow_width (F : Fmt) : 2 ^ F.width = 2 * (2 ^ F.expBits * 2 ^ F.fracBits) := by
  rw [← F.two_pow_signBit, ← pow_succ', F.width_eq, Nat.add_sub_cancel]

/-! ### The fields of a pattern -/

/-- The exponent field (R401). -/
def Fmt.expField (F : Fmt) (b : BitVec F.width) : Nat := b.toNat / 2 ^ F.fracBits % 2 ^ F.expBits

/-- The fraction field (R401). -/
def Fmt.fracField (F : Fmt) (b : BitVec F.width) : Nat := b.toNat % 2 ^ F.fracBits

/-- The pattern without its sign, as a number: it orders the patterns of one sign. -/
def Fmt.rest (F : Fmt) (b : BitVec F.width) : Nat := F.expField b * 2 ^ F.fracBits + F.fracField b

section Fields

variable (F : Fmt) (b : BitVec F.width)

theorem Fmt.expField_lt : F.expField b < 2 ^ F.expBits := Nat.mod_lt _ (by positivity)

theorem Fmt.fracField_lt : F.fracField b < 2 ^ F.fracBits := Nat.mod_lt _ (by positivity)

theorem Fmt.rest_eq_mod : F.rest b = b.toNat % 2 ^ (F.width - 1) := by
  rw [F.two_pow_signBit, mul_comm, Nat.mod_mul, Fmt.rest, Fmt.expField, Fmt.fracField, mul_comm, add_comm]

theorem Fmt.toNat_eq : b.toNat = (if b.msb then 2 ^ (F.width - 1) else 0) + F.rest b := by
  have hlt := b.isLt
  have hw : 2 ^ F.width = 2 * 2 ^ (F.width - 1) := by rw [F.two_pow_width, F.two_pow_signBit]
  rw [F.rest_eq_mod, BitVec.msb_eq_decide]
  by_cases h : 2 ^ (F.width - 1) ≤ b.toNat
  · rw [decide_eq_true h, if_pos rfl, Nat.mod_eq_sub_mod h, Nat.mod_eq_of_lt (by omega)]
    omega
  · rw [decide_eq_false h, if_neg (by simp), Nat.mod_eq_of_lt (by omega), zero_add]

/-- Two patterns with the same sign and the same rest are the same. -/
theorem Fmt.eq_of_rest_eq {F : Fmt} {a b : BitVec F.width} (hs : a.msb = b.msb) (hr : F.rest a = F.rest b) : a = b := by
  apply BitVec.eq_of_toNat_eq
  rw [F.toNat_eq a, F.toNat_eq b, hs, hr]

end Fields

/-! ### Packing fields -/

theorem Fmt.pack_rest_lt (F : Fmt) {e t : Nat} (he : e < 2 ^ F.expBits) (ht : t < 2 ^ F.fracBits) :
    e * 2 ^ F.fracBits + t < 2 ^ (F.width - 1) := by
  have : (e + 1) * 2 ^ F.fracBits ≤ 2 ^ F.expBits * 2 ^ F.fracBits := Nat.mul_le_mul_right _ he
  rw [F.two_pow_signBit]
  linarith

section Pack

variable (F : Fmt) (neg : Bool) {e t : Nat} (he : e < 2 ^ F.expBits) (ht : t < 2 ^ F.fracBits)

include he ht

theorem Fmt.toNat_pack :
    (F.pack neg e t).toNat = (if neg then 2 ^ (F.width - 1) else 0) + (e * 2 ^ F.fracBits + t) := by
  have hlt := F.pack_rest_lt he ht
  have hw : 2 ^ F.width = 2 * 2 ^ (F.width - 1) := by rw [F.two_pow_width, F.two_pow_signBit]
  rw [Fmt.pack, BitVec.toNat_ofNat, add_assoc, Nat.mod_eq_of_lt]
  split <;> omega

theorem Fmt.msb_pack : (F.pack neg e t).msb = neg := by
  have hlt := F.pack_rest_lt he ht
  rw [BitVec.msb_eq_decide, F.toNat_pack neg he ht]
  cases neg with
  | false => simpa using hlt
  | true => simp

theorem Fmt.rest_pack : F.rest (F.pack neg e t) = e * 2 ^ F.fracBits + t := by
  have h := F.toNat_eq (F.pack neg e t)
  rw [F.msb_pack neg he ht, F.toNat_pack neg he ht] at h
  exact (Nat.add_left_cancel h).symm

theorem Fmt.expField_pack : F.expField (F.pack neg e t) = e := by
  have h : F.rest (F.pack neg e t) / 2 ^ F.fracBits = F.expField (F.pack neg e t) := by
    rw [Fmt.rest, mul_comm, Nat.mul_add_div (by positivity), Nat.div_eq_of_lt (F.fracField_lt _), add_zero]
  rw [← h, F.rest_pack neg he ht, mul_comm, Nat.mul_add_div (by positivity), Nat.div_eq_of_lt ht, add_zero]

theorem Fmt.fracField_pack : F.fracField (F.pack neg e t) = t := by
  have h := F.rest_pack neg he ht
  rw [Fmt.rest, F.expField_pack neg he ht] at h
  exact Nat.add_left_cancel h

end Pack

/-! ### The value by the fields -/

section Values

variable (F : Fmt) (b : BitVec F.width)

theorem Fmt.value_nan (he : F.expField b = 2 ^ F.expBits - 1) (ht : F.fracField b ≠ 0) :
    F.value b = .nan (decide (F.fracField b < 2 ^ (F.fracBits - 1))) :=
  (if_pos he).trans (if_neg ht)

theorem Fmt.value_infinite (he : F.expField b = 2 ^ F.expBits - 1) (ht : F.fracField b = 0) :
    F.value b = .infinite b.msb :=
  (if_pos he).trans (if_pos ht)

theorem Fmt.value_normal (h0 : F.expField b ≠ 0) (he : F.expField b ≠ 2 ^ F.expBits - 1) :
    F.value b = .normal b.msb (2 ^ F.fracBits + F.fracField b) ((F.expField b : Int) - F.bias - F.fracBits) :=
  (if_neg he).trans (if_neg h0)

theorem Fmt.zero_ne_top (F : Fmt) : 0 ≠ 2 ^ F.expBits - 1 := by
  rw [F.two_pow_expBits]; omega

theorem Fmt.value_zero (he : F.expField b = 0) (ht : F.fracField b = 0) : F.value b = .zero b.msb :=
  (if_neg (he.trans_ne F.zero_ne_top)).trans ((if_pos he).trans (if_pos ht))

theorem Fmt.value_subnormal (he : F.expField b = 0) (ht : F.fracField b ≠ 0) :
    F.value b = .subnormal b.msb (F.fracField b) (F.emin - F.fracBits) :=
  (if_neg (he.trans_ne F.zero_ne_top)).trans ((if_pos he).trans (if_neg ht))

/-- The five classes, each with the fields that give it (R402). -/
inductive Fmt.Class (F : Fmt) (b : BitVec F.width) : FValue → Prop
  | nan (he : F.expField b = 2 ^ F.expBits - 1) (ht : F.fracField b ≠ 0) :
      F.Class b (.nan (decide (F.fracField b < 2 ^ (F.fracBits - 1))))
  | infinite (he : F.expField b = 2 ^ F.expBits - 1) (ht : F.fracField b = 0) : F.Class b (.infinite b.msb)
  | zero (he : F.expField b = 0) (ht : F.fracField b = 0) : F.Class b (.zero b.msb)
  | subnormal (he : F.expField b = 0) (ht : F.fracField b ≠ 0) :
      F.Class b (.subnormal b.msb (F.fracField b) (F.emin - F.fracBits))
  | normal (h0 : F.expField b ≠ 0) (he : F.expField b ≠ 2 ^ F.expBits - 1) :
      F.Class b (.normal b.msb (2 ^ F.fracBits + F.fracField b) ((F.expField b : Int) - F.bias - F.fracBits))

theorem Fmt.value_class : F.Class b (F.value b) := by
  by_cases he : F.expField b = 2 ^ F.expBits - 1
  · by_cases ht : F.fracField b = 0
    · exact F.value_infinite b he ht ▸ .infinite he ht
    · exact F.value_nan b he ht ▸ .nan he ht
  · by_cases h0 : F.expField b = 0
    · by_cases ht : F.fracField b = 0
      · exact F.value_zero b h0 ht ▸ .zero h0 ht
      · exact F.value_subnormal b h0 ht ▸ .subnormal h0 ht
    · exact F.value_normal b h0 he ▸ .normal h0 he

/-- The sign of what is no NaN is the sign bit. -/
theorem Fmt.neg_value {F : Fmt} {b : BitVec F.width} (h : (F.value b).isNaN = false) : (F.value b).neg = b.msb := by
  generalize hv : F.value b = v at h
  cases hv ▸ F.value_class b with
  | nan => exact absurd h (by simp [FValue.isNaN])
  | infinite | zero | subnormal | normal => rfl

end Values

/-! ### The patterns of infinities, zeros and the canonical NaN -/

theorem Fmt.value_of_infinity (F : Fmt) (neg : Bool) : F.value (F.infinity neg) = .infinite neg := by
  have he : 2 ^ F.expBits - 1 < 2 ^ F.expBits := Nat.sub_lt (by positivity) one_pos
  have ht : 0 < 2 ^ F.fracBits := by positivity
  rw [Fmt.infinity, F.value_infinite _ (F.expField_pack neg he ht) (F.fracField_pack neg he ht), F.msb_pack neg he ht]

theorem Fmt.value_of_zero (F : Fmt) (neg : Bool) : F.value (F.zero neg) = .zero neg := by
  have he : 0 < 2 ^ F.expBits := by positivity
  have ht : 0 < 2 ^ F.fracBits := by positivity
  rw [Fmt.zero, F.value_zero _ (F.expField_pack neg he ht) (F.fracField_pack neg he ht), F.msb_pack neg he ht]

/-- An infinity is the pattern of its sign. -/
theorem Fmt.infinity_neg_value {F : Fmt} {a : BitVec F.width} (h : (F.value a).isInfinite = true) :
    F.infinity (F.value a).neg = a := by
  have he : 2 ^ F.expBits - 1 < 2 ^ F.expBits := Nat.sub_lt (by positivity) one_pos
  have ht : 0 < 2 ^ F.fracBits := by positivity
  generalize hv : F.value a = v at h ⊢
  cases hv ▸ F.value_class a with
  | infinite hexp hfrac =>
    refine Fmt.eq_of_rest_eq (F.msb_pack _ he ht) ?_
    rw [FValue.neg, Fmt.infinity, F.rest_pack _ he ht, Fmt.rest, hexp, hfrac]
  | nan | zero | subnormal | normal => cases h

/-! ### FCLASS -/

theorem fpClass_of_wf {i : Instr} {s : State} (hw : i.wellFormed s.cfg = true) (F : Fmt) (rd rs1 : Reg) :
    fpClass i F rd rs1 s =
      .next (s.afterX rd (BitVec.ofNat 64 (2 ^ (F.value (s.readFp F rs1)).classBit)) i.ilen) := by
  rw [fpClass, legal_of_wf i s hw, intResult_eq, State.withFlags_none]; rfl

/-- Settles O50: the five conditions on the fields are those of the five classes. -/
theorem classifyResults : Obligations.ClassifyResults := by
  intro s rd rs1 go
  have form : ∀ {i : Instr} (F : Fmt), i.ilen = 4 → exec i s = fpClass i F rd rs1 s → go i F := by
    intro i F hlen hexec hw
    let b := s.readFp F rs1
    have sets : ∀ {v : FValue} {bit : Nat}, F.value b = v → v.classBit = bit →
        exec i s = .next (s.afterX rd (BitVec.ofNat 64 (2 ^ bit)) 4) := by
      rintro v bit rfl rfl
      exact hlen ▸ hexec.trans (fpClass_of_wf hw F rd rs1)
    exact ⟨fun he ht => sets (F.value_infinite b he ht) rfl,
      fun he ht => sets (F.value_nan b he ht) (by simp only [FValue.classBit, decide_eq_true_iff]; rfl),
      fun he ht => sets (F.value_zero b he ht) rfl, fun he ht => sets (F.value_subnormal b he ht) rfl,
      fun h0 he => sets (F.value_normal b h0 he) rfl⟩
  exact ⟨form .s rfl rfl, form .d rfl rfl, form .q rfl rfl⟩

/-! ### NaN operands -/

section NaN

variable {F : Fmt} (rm : Rounding) (a b c : BitVec F.width)

theorem Fmt.add_nan (h : ((F.value a).isNaN || (F.value b).isNaN) = true) :
    F.add rm a b = F.nanResult ((F.value a).isSignaling || (F.value b).isSignaling) := if_pos h

theorem Fmt.sub_nan (h : ((F.value a).isNaN || (F.value b).isNaN) = true) :
    F.sub rm a b = F.nanResult ((F.value a).isSignaling || (F.value b).isSignaling) := by
  obtain ⟨hn, hs⟩ := F.value_negate_nan b
  rw [← hn] at h
  rw [← hs]
  exact F.add_nan rm a (F.negate b) h

theorem Fmt.mul_nan (h : ((F.value a).isNaN || (F.value b).isNaN) = true) :
    F.mul rm a b = F.nanResult ((F.value a).isSignaling || (F.value b).isSignaling) := if_pos h

theorem Fmt.div_nan (h : ((F.value a).isNaN || (F.value b).isNaN) = true) :
    F.div rm a b = F.nanResult ((F.value a).isSignaling || (F.value b).isSignaling) := if_pos h

/-- The product of an infinity and a zero is invalid whatever the addend, even a quiet NaN (46_f.md R419). -/
theorem Fmt.fma_invalid (h : ((F.value a).isInfinite && (F.value b).isZero ||
    (F.value a).isZero && (F.value b).isInfinite) = true) : F.fma rm a b c = (F.cNaN, flagNV) := if_pos h

theorem Fmt.fma_nan (h : ((F.value a).isNaN || (F.value b).isNaN || (F.value c).isNaN) = true) :
    F.fma rm a b c = F.nanResult ((F.value a).isSignaling || (F.value b).isSignaling || (F.value c).isSignaling ||
      (F.value a).isInfinite && (F.value b).isZero || (F.value a).isZero && (F.value b).isInfinite) := by
  rw [Bool.or_assoc _ (_ && _)]
  cases hp : ((F.value a).isInfinite && (F.value b).isZero || (F.value a).isZero && (F.value b).isInfinite) with
  | true => rw [F.fma_invalid rm a b c hp, Bool.or_true]; rfl
  | false =>
    rw [Bool.or_false]
    exact (if_neg (by simp [hp])).trans (if_pos h)

end NaN

/-- Settles O58: the NaN case is the first of every operation, but for the invalid product of the fused ones. -/
theorem naNOperandsGiveCanonicalNaN : Obligations.NaNOperandsGiveCanonicalNaN := by
  refine ⟨⟨rfl, rfl, rfl⟩, ?_⟩
  intro F rm a b c va vb vc nv s2
  simp only [← Bool.or_eq_true]
  exact ⟨fun h => ⟨F.add_nan rm a b h, F.sub_nan rm a b h, F.mul_nan rm a b h, F.div_nan rm a b h⟩,
    fun h => if_pos h, fun h => F.fma_nan rm a b c (by rwa [Bool.or_assoc]), fun G h => if_pos h⟩

end Sys2Proof.Machine
end

section
/-! PROOFS. The numbers that finite patterns stand for, and their order, which is that of sign and magnitude of the
patterns (46_f.md R402, R427, R428, R441 to R444). -/

namespace Sys2Proof.Machine

/-! ### Values as numbers -/

theorem FValue.toRat_eq (v : FValue) : v.toRat = v.signed * (2 : ℚ) ^ v.exponent := by
  cases v with
  | nan | infinite | zero => simp [FValue.toRat, FValue.signed, FValue.exponent, FValue.magnitude]
  | subnormal neg | normal neg =>
    cases neg <;> simp [FValue.toRat, FValue.signed, FValue.exponent, FValue.magnitude, FValue.neg]

/-- A power of two on a finer grid. -/
theorem two_pow_toNat_mul_zpow {e g : Int} (h : g ≤ e) : (2 : ℚ) ^ (e - g).toNat * 2 ^ g = 2 ^ e := by
  have he : ((e - g).toNat : Int) + g = e := by omega
  rw [← zpow_natCast, ← zpow_add₀ two_ne_zero, he]

theorem scaleTo_mul (n : Int) {e g : Int} (h : g ≤ e) : (scaleTo n e g : ℚ) * 2 ^ g = n * 2 ^ e := by
  rw [scaleTo]
  push_cast
  rw [mul_assoc, two_pow_toNat_mul_zpow h]

/-- Two values brought to one exponent compare as the numbers do. -/
theorem scaleTo_lt_iff (n n' : Int) {e e' g : Int} (h : g ≤ e) (h' : g ≤ e') :
    scaleTo n e g < scaleTo n' e' g ↔ (n : ℚ) * 2 ^ e < n' * 2 ^ e' := by
  rw [← scaleTo_mul n h, ← scaleTo_mul n' h', mul_lt_mul_iff_left₀ (by positivity), Int.cast_lt]

/-! ### Finite patterns in units of the smallest positive number -/

/-- The number that a pattern with the rest `r` stands for, in units of `2 ^ (emin - fracBits)`. -/
def Fmt.units (F : Fmt) (r : Nat) : Nat :=
  if r / 2 ^ F.fracBits = 0 then r % 2 ^ F.fracBits
  else (2 ^ F.fracBits + r % 2 ^ F.fracBits) * 2 ^ (r / 2 ^ F.fracBits - 1)

section Units

variable (F : Fmt)

theorem Fmt.units_fields {e t : Nat} (ht : t < 2 ^ F.fracBits) :
    F.units (e * 2 ^ F.fracBits + t) = if e = 0 then t else (2 ^ F.fracBits + t) * 2 ^ (e - 1) := by
  have hdiv : (e * 2 ^ F.fracBits + t) / 2 ^ F.fracBits = e := by
    rw [mul_comm, Nat.mul_add_div (by positivity), Nat.div_eq_of_lt ht, add_zero]
  rw [Fmt.units, hdiv, mul_comm, Nat.mul_add_mod, Nat.mod_eq_of_lt ht]

/-- The next pattern stands for the next number: in the same binade, or the first one of the next. -/
theorem Fmt.units_lt_succ (r : Nat) : F.units r < F.units (r + 1) := by
  obtain ⟨e, t, ht, rfl⟩ : ∃ e t, t < 2 ^ F.fracBits ∧ e * 2 ^ F.fracBits + t = r :=
    ⟨r / 2 ^ F.fracBits, r % 2 ^ F.fracBits, Nat.mod_lt _ (by positivity), Nat.div_add_mod' r _⟩
  rw [F.units_fields ht]
  rcases Nat.lt_or_ge (t + 1) (2 ^ F.fracBits) with hnext | hlast
  · rw [add_assoc, F.units_fields hnext]
    split
    · exact Nat.lt_succ_self t
    · exact Nat.mul_lt_mul_of_pos_right (by omega) (by positivity)
  · have hcarry : e * 2 ^ F.fracBits + t + 1 = (e + 1) * 2 ^ F.fracBits + 0 := by
      rw [add_mul, one_mul, add_assoc, le_antisymm (show t + 1 ≤ 2 ^ F.fracBits from ht) hlast, add_zero]
    rw [hcarry, F.units_fields (by positivity), if_neg (Nat.succ_ne_zero e), add_zero, Nat.add_sub_cancel]
    split
    · next h => rw [h, pow_zero, mul_one]; exact ht
    · next h =>
      calc (2 ^ F.fracBits + t) * 2 ^ (e - 1)
        _ < (2 ^ F.fracBits * 2) * 2 ^ (e - 1) := Nat.mul_lt_mul_of_pos_right (by omega) (by positivity)
        _ = 2 ^ F.fracBits * 2 ^ e := by rw [mul_assoc, mul_pow_sub_one h]

theorem Fmt.units_strictMono : StrictMono F.units := strictMono_nat_of_lt_succ F.units_lt_succ

theorem Fmt.units_eq_zero (r : Nat) : F.units r = 0 ↔ r = 0 := by
  have h : F.units 0 = 0 := by simp [Fmt.units]
  rw [← F.units_strictMono.injective.eq_iff (a := r), h]

theorem Fmt.units_rest (b : BitVec F.width) :
    F.units (F.rest b) =
      if F.expField b = 0 then F.fracField b
      else (2 ^ F.fracBits + F.fracField b) * 2 ^ (F.expField b - 1) := F.units_fields (F.fracField_lt b)

end Units

/-- The number of a finite pattern is its signed units. -/
theorem Fmt.toRat_value {F : Fmt} {b : BitVec F.width} (h : (F.value b).isFinite = true) :
    (F.value b).toRat = (if b.msb then -1 else 1) * F.units (F.rest b) * 2 ^ (F.emin - F.fracBits) := by
  rw [F.units_rest]
  generalize hv : F.value b = v at h ⊢
  cases hv ▸ F.value_class b with
  | nan | infinite => cases h
  | zero he ht => simp [he, ht, FValue.toRat]
  | subnormal he => simp [he, FValue.toRat]
  | normal h0 =>
    have he : (F.expField b : Int) - F.bias - F.fracBits =
        ((F.expField b - 1 : Nat) : Int) + (F.emin - F.fracBits) := by
      unfold Fmt.emin; omega
    rw [if_neg h0, FValue.toRat, he, zpow_add₀ two_ne_zero, zpow_natCast]
    push_cast
    ring

/-! ### Sign and magnitude of a pattern -/

theorem Fmt.signedMagnitude_eq (F : Fmt) (b : BitVec F.width) :
    signedMagnitude b = if b.msb then -(F.rest b : Int) else F.rest b := by
  have h := F.toNat_eq b
  unfold signedMagnitude
  cases hs : b.msb <;> simp only [hs, Bool.false_eq_true, if_false, if_true] at h ⊢ <;> omega

/-- The order of finite numbers is that of sign and magnitude (R441). -/
theorem Fmt.toRat_lt_iff {F : Fmt} {a b : BitVec F.width} (ha : (F.value a).isFinite = true)
    (hb : (F.value b).isFinite = true) :
    (F.value a).toRat < (F.value b).toRat ↔ signedMagnitude a < signedMagnitude b := by
  have ha0 := F.units_eq_zero (F.rest a)
  have hb0 := F.units_eq_zero (F.rest b)
  have hab := F.units_strictMono.lt_iff_lt (a := F.rest a) (b := F.rest b)
  have hba := F.units_strictMono.lt_iff_lt (a := F.rest b) (b := F.rest a)
  have units : ∀ c : BitVec F.width, (if c.msb then (-1 : ℚ) else 1) * F.units (F.rest c) =
      ((if c.msb then -(F.units (F.rest c) : Int) else F.units (F.rest c) : Int) : ℚ) := fun c => by
    split <;> simp
  rw [Fmt.toRat_value ha, Fmt.toRat_value hb, mul_lt_mul_iff_left₀ (by positivity), units, units, Int.cast_lt,
    F.signedMagnitude_eq, F.signedMagnitude_eq]
  split <;> split <;> omega

/-- A finite pattern is the one with its sign and its number. -/
theorem Fmt.eq_of_toRat_eq {F : Fmt} {a b : BitVec F.width} (ha : (F.value a).isFinite = true)
    (hb : (F.value b).isFinite = true) (hs : a.msb = b.msb) (h : (F.value a).toRat = (F.value b).toRat) : a = b := by
  have h1 := mt (Fmt.toRat_lt_iff ha hb).2 h.not_lt
  have h2 := mt (Fmt.toRat_lt_iff hb ha).2 h.not_gt
  refine Fmt.eq_of_rest_eq hs ?_
  rw [F.signedMagnitude_eq, F.signedMagnitude_eq, hs] at h1 h2
  split at h1 <;> simp_all <;> omega

/-! ### The comparison of values -/

theorem FValue.isFinite_of_not_infinite {v : FValue} (hn : v.isNaN = false) (hi : v.isInfinite = false) :
    v.isFinite = true := by
  rw [FValue.isFinite, hn, hi]; rfl

theorem FValue.isNaN_of_isFinite {v : FValue} (h : v.isFinite = true) : v.isNaN = false := by
  cases v with
  | nan => cases h
  | infinite | zero | subnormal | normal => rfl

theorem FValue.lt_of_finite {a b : FValue} (ha : a.isInfinite = false) (hb : b.isInfinite = false) :
    a.lt b = true ↔ a.toRat < b.toRat := by
  rw [FValue.lt, ha, hb, Bool.or_false, if_neg (by simp), decide_eq_true_iff,
    scaleTo_lt_iff _ _ (min_le_left _ _) (min_le_right _ _), a.toRat_eq, b.toRat_eq]

theorem FValue.lt_of_infinite {a b : FValue} (h : a.isInfinite = true ∨ b.isInfinite = true) :
    a.lt b = true ↔ a.rank < b.rank := by
  rw [FValue.lt, if_pos (by simpa using h), decide_eq_true_iff]

theorem FValue.rank_ne_zero {v : FValue} (h : v.isInfinite = true) : v.rank ≠ 0 := by
  rw [FValue.rank, if_pos h]
  split <;> decide

/-- The rest of the patterns of the infinities; no number has one so large. -/
def Fmt.infinityRest (F : Fmt) : Nat := (2 ^ F.expBits - 1) * 2 ^ F.fracBits

theorem Fmt.infinityRest_pos (F : Fmt) : 0 < F.infinityRest := by
  rw [Fmt.infinityRest, F.two_pow_expBits]
  exact Nat.mul_pos (by omega) (by positivity)

/-- Where a pattern that is no NaN lies: an infinity at the end of its side, a finite one between the ends. -/
theorem Fmt.rank_cases {F : Fmt} {b : BitVec F.width} (h : (F.value b).isNaN = false) :
    ((F.value b).rank = 0 ∧ -(F.infinityRest : Int) < signedMagnitude b ∧
      signedMagnitude b < F.infinityRest) ∨
    ((F.value b).rank = 1 ∧ signedMagnitude b = F.infinityRest) ∨
    ((F.value b).rank = -1 ∧ signedMagnitude b = -(F.infinityRest : Int)) := by
  have finite : F.expField b ≠ 2 ^ F.expBits - 1 →
      -(F.infinityRest : Int) < signedMagnitude b ∧ signedMagnitude b < F.infinityRest := by
    intro hne
    have hlt : F.expField b + 1 ≤ 2 ^ F.expBits - 1 := by have := F.expField_lt b; omega
    have hmul := Nat.mul_le_mul_right (2 ^ F.fracBits) hlt
    have hrest : F.rest b < F.infinityRest := by
      have := F.fracField_lt b
      unfold Fmt.rest Fmt.infinityRest
      linarith
    rw [F.signedMagnitude_eq]
    split <;> omega
  generalize hv : F.value b = v at h ⊢
  cases hv ▸ F.value_class b with
  | nan => exact absurd h (by simp [FValue.isNaN])
  | infinite he ht =>
    have hrest : F.rest b = F.infinityRest := by rw [Fmt.rest, he, ht, add_zero]; rfl
    rw [F.signedMagnitude_eq, hrest]
    cases b.msb <;> simp [FValue.rank, FValue.isInfinite, FValue.neg]
  | zero he | subnormal he => exact .inl ⟨rfl, finite (he.trans_ne F.zero_ne_top)⟩
  | normal _ he => exact .inl ⟨rfl, finite he⟩

/-- `FValue.lt` is the order of sign and magnitude, infinities included (R441). -/
theorem Fmt.lt_value_iff {F : Fmt} {a b : BitVec F.width} (ha : (F.value a).isNaN = false)
    (hb : (F.value b).isNaN = false) :
    (F.value a).lt (F.value b) = true ↔ signedMagnitude a < signedMagnitude b := by
  by_cases hinf : (F.value a).isInfinite = true ∨ (F.value b).isInfinite = true
  · have hrank : (F.value a).rank ≠ 0 ∨ (F.value b).rank ≠ 0 := hinf.imp FValue.rank_ne_zero FValue.rank_ne_zero
    have hpa := Fmt.rank_cases ha
    have hpb := Fmt.rank_cases hb
    have hpos := F.infinityRest_pos
    rw [FValue.lt_of_infinite hinf]
    omega
  · obtain ⟨hia, hib⟩ := not_or.1 hinf
    rw [Bool.not_eq_true] at hia hib
    rw [FValue.lt_of_finite hia hib,
      Fmt.toRat_lt_iff (FValue.isFinite_of_not_infinite ha hia) (FValue.isFinite_of_not_infinite hb hib)]

/-- Equality by value is that of sign and magnitude, with one for both zeros (R442). -/
theorem Fmt.eq_value_iff {F : Fmt} {a b : BitVec F.width} (ha : (F.value a).isNaN = false)
    (hb : (F.value b).isNaN = false) :
    (F.value a).eq (F.value b) = true ↔ signedMagnitude a = signedMagnitude b := by
  rw [FValue.eq, Bool.and_eq_true, Bool.not_eq_true', Bool.not_eq_true', ← Bool.not_eq_true, ← Bool.not_eq_true,
    Fmt.lt_value_iff ha hb, Fmt.lt_value_iff hb ha]
  omega

theorem Fmt.isZero_value (F : Fmt) (b : BitVec F.width) : (F.value b).isZero = true ↔ F.rest b = 0 := by
  have hfrac : (0 : Nat) < 2 ^ F.fracBits := by positivity
  rw [Fmt.rest, Nat.add_eq_zero_iff, Nat.mul_eq_zero, or_iff_left hfrac.ne']
  generalize hv : F.value b = v
  cases hv ▸ F.value_class b with
  | nan he ht => exact iff_of_false Bool.false_ne_true fun h => ht h.2
  | infinite he => exact iff_of_false Bool.false_ne_true fun h => F.zero_ne_top (h.1 ▸ he)
  | zero he ht => exact iff_of_true rfl ⟨he, ht⟩
  | subnormal he ht => exact iff_of_false Bool.false_ne_true fun h => ht h.2
  | normal h0 => exact iff_of_false Bool.false_ne_true fun h => h0 h.1

/-- The order in which -0 is below +0 (R427). -/
def Fmt.below {F : Fmt} (a b : BitVec F.width) : Prop :=
  signedMagnitude a < signedMagnitude b ∨ (signedMagnitude a = signedMagnitude b ∧ a.msb = true ∧ b.msb = false)

theorem Fmt.ltZeros_value_iff {F : Fmt} {a b : BitVec F.width} (ha : (F.value a).isNaN = false)
    (hb : (F.value b).isNaN = false) : (F.value a).ltZeros (F.value b) = true ↔ Fmt.below a b := by
  have zeros : F.rest a = 0 ∧ F.rest b = 0 ∧ a.msb = true ∧ b.msb = false ↔
      signedMagnitude a = signedMagnitude b ∧ a.msb = true ∧ b.msb = false := by
    rw [← and_assoc]
    refine and_congr_left fun ⟨hsa, hsb⟩ => ?_
    rw [F.signedMagnitude_eq, F.signedMagnitude_eq, hsa, hsb, if_pos rfl, if_neg (by simp)]
    omega
  rw [FValue.ltZeros, Bool.or_eq_true, Fmt.lt_value_iff ha hb, Fmt.below, ← zeros, Fmt.neg_value ha, Fmt.neg_value hb]
  simp only [Bool.and_eq_true, Fmt.isZero_value, Bool.not_eq_true', and_assoc]

/-! ### FMIN and FMAX -/

section Choose

variable {F : Fmt} {a b : BitVec F.width} (take : FValue → FValue → Bool)

theorem Fmt.choose_of_nans (ha : (F.value a).isNaN = true) (hb : (F.value b).isNaN = true) :
    (F.choose take a b).1 = F.cNaN := if_pos (by rw [ha, hb]; rfl)

theorem Fmt.choose_of_nan_left (ha : (F.value a).isNaN = true) (hb : (F.value b).isNaN = false) :
    (F.choose take a b).1 = b := (if_neg (by simp [hb])).trans (if_pos ha)

theorem Fmt.choose_of_nan_right (ha : (F.value a).isNaN = false) (hb : (F.value b).isNaN = true) :
    (F.choose take a b).1 = a := (if_neg (by simp [ha])).trans ((if_neg (by simp [ha])).trans (if_pos hb))

theorem Fmt.choose_of_numbers (ha : (F.value a).isNaN = false) (hb : (F.value b).isNaN = false) :
    (F.choose take a b).1 = if take (F.value a) (F.value b) then a else b :=
  (if_neg (by simp [ha])).trans ((if_neg (by simp [ha])).trans (if_neg (by simp [hb])))

end Choose

/-- FMIN (`largest` false) and FMAX. -/
def FValue.extreme (largest : Bool) : FValue → FValue → Bool :=
  fun x y => if largest then !x.ltZeros y else x.ltZeros y

theorem Fmt.min_eq_choose (F : Fmt) : F.min = F.choose (FValue.extreme false) := rfl

theorem Fmt.max_eq_choose (F : Fmt) : F.max = F.choose (FValue.extreme true) := rfl

theorem fpChoose_of_wf {i : Instr} {s : State} (hw : i.wellFormed s.cfg = true) {F : Fmt}
    (op : BitVec F.width → BitVec F.width → BitVec F.width × FFlags) (rd rs1 rs2 : Reg) :
    fpChoose i F op rd rs1 rs2 s =
      .next ((s.afterF rd (box s.cfg F (op (s.readFp F rs1) (s.readFp F rs2)).1) i.ilen).withFlags
        (op (s.readFp F rs1) (s.readFp F rs2)).2) := by
  rw [fpChoose, legal_of_wf i s hw, fpResult_eq]

/-- Settles O48: FMIN and FMAX are `Fmt.choose`, by the order in which -0 is below +0. -/
theorem minMaxResults : Obligations.MinMaxResults := by
  intro s rd rs1 rs2 go
  have form : ∀ {i : Instr} {F : Fmt} {largest : Bool} {op}, i.ilen = 4 → op = F.choose (FValue.extreme largest) →
      exec i s = fpChoose i F op rd rs1 rs2 s → go i F largest := by
    intro i F largest op hlen hop hexec hw
    subst hop
    let a := s.readFp F rs1
    let b := s.readFp F rs2
    have put : ∀ {v : BitVec F.width}, (F.choose (FValue.extreme largest) a b).1 = v → exec i s = .next
        ((s.afterF rd (box s.cfg F v) 4).withFlags (nvIf ((F.value a).isSignaling || (F.value b).isSignaling))) := by
      rintro v rfl
      rw [hexec, fpChoose_of_wf hw, hlen]; rfl
    refine ⟨fun ha hb => put (Fmt.choose_of_nans _ ha hb), fun ha hb => put (Fmt.choose_of_nan_left _ ha hb),
      fun ha hb => put (Fmt.choose_of_nan_right _ ha hb), fun ha hb => ?_⟩
    have hbelow := Fmt.ltZeros_value_iff (a := a) (b := b) ha hb
    refine ⟨fun h => put ?_, fun h => put ?_⟩ <;> rw [Fmt.choose_of_numbers _ ha hb, FValue.extreme]
    · rw [hbelow.2 h]; cases largest <;> rfl
    · rw [Bool.eq_false_iff.2 (mt hbelow.1 h)]; cases largest <;> rfl
  exact ⟨form rfl (Fmt.min_eq_choose .s) rfl, form rfl (Fmt.max_eq_choose .s) rfl,
    form rfl (Fmt.min_eq_choose .d) rfl, form rfl (Fmt.max_eq_choose .d) rfl, form rfl (Fmt.min_eq_choose .q) rfl,
    form rfl (Fmt.max_eq_choose .q) rfl⟩

/-! ### FEQ, FLT and FLE -/

section Compare

variable {F : Fmt} {a b : BitVec F.width}

theorem Fmt.compare_of_nan (h : ((F.value a).isNaN || (F.value b).isNaN) = true) :
    F.feq a b = (false, nvIf ((F.value a).isSignaling || (F.value b).isSignaling)) ∧ F.flt a b = (false, flagNV) ∧
      F.fle a b = (false, flagNV) := ⟨if_pos h, if_pos h, if_pos h⟩

theorem Fmt.compare_of_numbers (h : ((F.value a).isNaN || (F.value b).isNaN) = false) :
    F.feq a b = (decide (signedMagnitude a = signedMagnitude b), flagNone) ∧
      F.flt a b = (decide (signedMagnitude a < signedMagnitude b), flagNone) ∧
      F.fle a b = (decide (signedMagnitude a ≤ signedMagnitude b), flagNone) := by
  obtain ⟨ha, hb⟩ := Bool.or_eq_false_iff.1 h
  have hn := Bool.eq_false_iff.1 h
  have hle : (!(F.value b).lt (F.value a)) = true ↔ signedMagnitude a ≤ signedMagnitude b := by
    rw [Bool.not_eq_true', ← Bool.not_eq_true, Fmt.lt_value_iff hb ha, not_lt]
  have pair : ∀ {x : Bool} {p : Prop} [Decidable p], (x = true ↔ p) → (x, flagNone) = (decide p, flagNone) :=
    fun hp => congrArg (·, flagNone) (Bool.eq_iff_iff.2 (hp.trans decide_eq_true_iff.symm))
  exact ⟨(if_neg hn).trans (pair (Fmt.eq_value_iff ha hb)), (if_neg hn).trans (pair (Fmt.lt_value_iff ha hb)),
    (if_neg hn).trans (pair hle)⟩

end Compare

theorem fpCompare_of_wf {i : Instr} {s : State} (hw : i.wellFormed s.cfg = true) {F : Fmt}
    {op : BitVec F.width → BitVec F.width → Bool × FFlags} {rs1 rs2 : Reg} {holds : Bool}
    {fl : FFlags} (hr : op (s.readFp F rs1) (s.readFp F rs2) = (holds, fl)) (rd : Reg) :
    fpCompare i F op rd rs1 rs2 s = .next ((s.afterX rd (if holds then 1#64 else 0#64) i.ilen).withFlags fl) := by
  rw [fpCompare, hr, legal_of_wf i s hw, intResult_eq]

/-- Settles O49: the comparisons go by the order of the values, which is that of sign and magnitude. -/
theorem compareResults : Obligations.CompareResults := by
  refine ⟨?_, fun F a b => Fmt.toRat_lt_iff⟩
  intro s rd rs1 rs2 on
  have form : ∀ {feq flt fle : Instr} (F : Fmt), feq.ilen = 4 → flt.ilen = 4 → fle.ilen = 4 →
      exec feq s = fpCompare feq F F.feq rd rs1 rs2 s → exec flt s = fpCompare flt F F.flt rd rs1 rs2 s →
      exec fle s = fpCompare fle F F.fle rd rs1 rs2 s → on F feq flt fle := by
    intro feq flt fle F heq hlt hle hfeq hflt hfle
    have put : ∀ {i : Instr} {op} {holds : Bool} {fl : FFlags}, i.ilen = 4 →
        exec i s = fpCompare i F op rd rs1 rs2 s → op (s.readFp F rs1) (s.readFp F rs2) = (holds, fl) →
        i.wellFormed s.cfg = true →
        exec i s = .next ((s.afterX rd (if holds then 1#64 else 0#64) 4).withFlags fl) := by
      intro i op holds fl hlen hexec hr hw
      rw [hexec, fpCompare_of_wf hw hr, hlen]
    constructor <;> intro h
    · obtain ⟨req, rlt, rle⟩ := Fmt.compare_of_nan h
      exact ⟨put heq hfeq req, put hlt hflt rlt, put hle hfle rle⟩
    · obtain ⟨req, rlt, rle⟩ := Fmt.compare_of_numbers h
      exact ⟨put heq hfeq req, put hlt hflt rlt, put hle hfle rle⟩
  exact ⟨form .s rfl rfl rfl rfl rfl rfl, form .d rfl rfl rfl rfl rfl rfl, form .q rfl rfl rfl rfl rfl rfl⟩

end Sys2Proof.Machine
end

section
/-! PROOFS. Rounding: to a grid, the neighbour of the mode; to a format, the number rounded to its precision, an
overflow, or the number rounded to the grid of the subnormals (46_f.md R402, R405, R409). -/

namespace Sys2Proof.Machine

/-! ### Rounding to a grid (R405 step 1) -/

/-- The mode moves a magnitude with quotient `q` and non-zero remainder `r` by `step` up to `q + 1` (R405). -/
def Rounding.Ups (rm : Rounding) (neg : Bool) (q r step : Nat) : Prop :=
  match rm with
  | .rne => step < 2 * r ∨ (2 * r = step ∧ q % 2 = 1)
  | .rtz => False
  | .rdn => neg = true
  | .rup => neg = false
  | .rmm => step ≤ 2 * r

theorem Rounding.up_iff (rm : Rounding) (neg : Bool) (q step : Nat) {r : Nat} (hr : r ≠ 0) :
    rm.up neg (q % 2 == 1) (r == 0) (compare (2 * r) step) = true ↔ rm.Ups neg q r step := by
  rw [beq_eq_false_iff_ne.2 hr]
  cases rm with
  | rne => simp [Rounding.up, Rounding.Ups, compare_gt_iff_gt]
  | rtz | rdn => simp [Rounding.up, Rounding.Ups]
  | rup => simp [Rounding.up, Rounding.Ups]
  | rmm => simp [Rounding.up, Rounding.Ups, compare_lt_iff_lt]

section Grid

variable (rm : Rounding) (neg : Bool) (m : Nat) {e g : Int} {d : Nat}

theorem roundToGrid_finer (h : g ≤ e) : roundToGrid rm neg m e g = (m * 2 ^ (e - g).toNat, false) := if_pos h

variable {m} in
theorem roundToGrid_of_multiple (hd : 0 < d) (h : m % 2 ^ d = 0) :
    roundToGrid rm neg m e (e + d) = (m / 2 ^ d, false) := by
  rw [roundToGrid_coarser rm neg m e hd, h]
  rfl

variable {m} in
/-- Between two multiples of the grid the result is the upper or the lower one, as the mode says. -/
theorem roundToGrid_of_not_multiple (hd : 0 < d) (h : m % 2 ^ d ≠ 0) :
    (roundToGrid rm neg m e (e + d)).2 = true ∧
      ((rm.Ups neg (m / 2 ^ d) (m % 2 ^ d) (2 ^ d) ∧ (roundToGrid rm neg m e (e + d)).1 = m / 2 ^ d + 1) ∨
        (¬ rm.Ups neg (m / 2 ^ d) (m % 2 ^ d) (2 ^ d) ∧ (roundToGrid rm neg m e (e + d)).1 = m / 2 ^ d)) := by
  rw [roundToGrid_coarser rm neg m e hd]
  refine ⟨bne_iff_ne.2 h, ?_⟩
  by_cases hup : rm.Ups neg (m / 2 ^ d) (m % 2 ^ d) (2 ^ d)
  · exact .inl ⟨hup, if_pos ((rm.up_iff neg _ _ h).2 hup)⟩
  · exact .inr ⟨hup, if_neg (mt (rm.up_iff neg _ _ h).1 hup)⟩

/-- The first clause of O56: which of the two neighbours, by the mode. -/
theorem roundToGrid_neighbour (e : Int) (hd : 0 < d) :
    let step := 2 ^ d
    let k := (roundToGrid rm neg m e (e + d)).1
    let inexact := (roundToGrid rm neg m e (e + d)).2
    (inexact = false ↔ m % step = 0) ∧
    (m % step = 0 → k = m / step) ∧
    (m % step ≠ 0 → (k = m / step ∨ k = m / step + 1) ∧
      (rm = .rtz → k = m / step) ∧
      (rm = .rdn → (k = m / step + 1 ↔ neg = true)) ∧
      (rm = .rup → (k = m / step + 1 ↔ neg = false)) ∧
      (rm = .rne ∨ rm = .rmm → 2 * (m % step) < step → k = m / step) ∧
      (rm = .rne ∨ rm = .rmm → step < 2 * (m % step) → k = m / step + 1) ∧
      (rm = .rne → 2 * (m % step) = step → k % 2 = 0) ∧
      (rm = .rmm → 2 * (m % step) = step → k = m / step + 1)) := by
  intro step k inexact
  by_cases h : m % step = 0
  · have hk := roundToGrid_of_multiple rm neg (e := e) hd h
    exact ⟨iff_of_true (congrArg Prod.snd hk) h, fun _ => congrArg Prod.fst hk, fun hn => absurd h hn⟩
  · obtain ⟨hinexact, hk⟩ := roundToGrid_of_not_multiple rm neg (e := e) hd h
    refine ⟨iff_of_false (Bool.not_eq_false _ ▸ hinexact) h, fun hz => absurd hz h, fun _ => ?_⟩
    replace hk : (rm.Ups neg (m / step) (m % step) step ∧ k = m / step + 1) ∨
        (¬ rm.Ups neg (m / step) (m % step) step ∧ k = m / step) := hk
    clear_value k step
    refine ⟨by omega, ?rtz, ?rdn, ?rup, ?below, ?above, ?even, ?away⟩
    case rtz => rintro rfl; simpa [Rounding.Ups] using hk
    case even | away => rintro rfl hmid; simp only [Rounding.Ups] at hk; omega
    case rdn | rup => rintro rfl; simp only [Rounding.Ups] at hk; cases neg <;> simp_all
    case below | above => rintro (rfl | rfl) hside <;> simp only [Rounding.Ups] at hk <;> omega

/-- What `r` can be as the magnitude `x` rounded to the multiples of `2 ^ g`: exact, or the upper or lower of the two
neighbours, where `x` lies `rem / step` of the way between them. -/
inductive Rounding.OnGrid (rm : Rounding) (neg : Bool) (x : ℚ) (g : Int) : Nat × Bool → Prop
  | exact {k : Nat} (h : x = k * 2 ^ g) : rm.OnGrid neg x g (k, false)
  | up {q rem step : Nat} (h0 : 0 < rem) (h1 : rem < step) (h : x = (q + rem / step) * 2 ^ g)
      (hup : rm.Ups neg q rem step) : rm.OnGrid neg x g (q + 1, true)
  | down {q rem step : Nat} (h0 : 0 < rem) (h1 : rem < step) (h : x = (q + rem / step) * 2 ^ g)
      (hup : ¬ rm.Ups neg q rem step) : rm.OnGrid neg x g (q, true)

variable (e g) in
theorem roundToGrid_onGrid : rm.OnGrid neg (m * 2 ^ e) g (roundToGrid rm neg m e g) := by
  rcases le_or_gt g e with hge | hlt
  · rw [roundToGrid_finer rm neg m hge]
    refine .exact ?_
    push_cast
    rw [mul_assoc, two_pow_toNat_mul_zpow hge]
  · obtain ⟨d, rfl⟩ : ∃ d : Nat, g = e + d := ⟨(g - e).toNat, by omega⟩
    have hd : 0 < d := by omega
    have hx : (m : ℚ) * 2 ^ e = ((m / 2 ^ d : Nat) + (m % 2 ^ d : Nat) / (2 ^ d : Nat)) * 2 ^ (e + d) := by
      have hm : ((2 ^ d * (m / 2 ^ d) + m % 2 ^ d : Nat) : ℚ) = m := by rw [Nat.div_add_mod]
      rw [← hm, zpow_add₀ two_ne_zero, zpow_natCast]
      push_cast
      field_simp
    by_cases h : m % 2 ^ d = 0
    · rw [roundToGrid_of_multiple rm neg hd h]
      refine .exact ?_
      rw [hx, h, Nat.cast_zero, zero_div, add_zero]
    · have h0 := Nat.pos_of_ne_zero h
      have h1 : m % 2 ^ d < 2 ^ d := Nat.mod_lt _ (by positivity)
      obtain ⟨hinexact, ⟨hup, hk⟩ | ⟨hup, hk⟩⟩ := roundToGrid_of_not_multiple rm neg (e := e) hd h
      · rw [← Prod.mk.eta (p := roundToGrid rm neg m e (e + d)), hinexact, hk]
        exact .up h0 h1 hx hup
      · rw [← Prod.mk.eta (p := roundToGrid rm neg m e (e + d)), hinexact, hk]
        exact .down h0 h1 hx hup

end Grid

section OnGrid

variable {rm : Rounding} {neg : Bool} {x : ℚ} {g : Int} {r : Nat × Bool} (h : rm.OnGrid neg x g r)

include h

/-- A rounded magnitude lies between any two multiples of the grid between which the number lies. -/
theorem Rounding.OnGrid.le {n : Nat} (hn : x ≤ n * 2 ^ g) : r.1 ≤ n := by
  have lower : ∀ {q rem step : Nat}, 0 < rem → rem < step → x = (q + rem / step) * 2 ^ g → q < n := by
    rintro q rem step h0 h1 rfl
    have hpos : (0 : ℚ) < rem / step := by have := h0.trans h1; positivity
    rw [mul_le_mul_iff_left₀ (by positivity)] at hn
    exact_mod_cast (lt_add_of_pos_right (q : ℚ) hpos).trans_le hn
  cases h with
  | exact h =>
    rw [h, mul_le_mul_iff_left₀ (by positivity)] at hn
    exact_mod_cast hn
  | up h0 h1 h => exact lower h0 h1 h
  | down h0 h1 h => exact (lower h0 h1 h).le

theorem Rounding.OnGrid.ge {n : Nat} (hn : n * 2 ^ g ≤ x) : n ≤ r.1 := by
  have upper : ∀ {q rem step : Nat}, rem < step → x = (q + rem / step) * 2 ^ g → n ≤ q := by
    rintro q rem step h1 rfl
    have hlt : (rem : ℚ) / step < 1 := (div_lt_one (by exact_mod_cast Nat.zero_lt_of_lt h1)).2 (by exact_mod_cast h1)
    rw [mul_le_mul_iff_left₀ (by positivity)] at hn
    have : (n : ℚ) < q + 1 := hn.trans_lt (by linarith)
    exact Nat.lt_succ_iff.1 (by exact_mod_cast this)
  cases h with
  | exact h =>
    rw [h, mul_le_mul_iff_left₀ (by positivity)] at hn
    exact_mod_cast hn
  | up _ h1 h => exact (upper h1 h).trans (Nat.le_succ _)
  | down _ h1 h => exact upper h1 h

end OnGrid


/-! ### Patterns with given fields as numbers -/

/-- The pattern stands for the finite number of magnitude `x` with the sign `neg`. -/
structure Fmt.Represents (F : Fmt) (b : BitVec F.width) (neg : Bool) (x : ℚ) : Prop where
  finite : (F.value b).isFinite = true
  sign : (F.value b).neg = neg
  number : (F.value b).toRat = (if neg then -1 else 1) * x

theorem Fmt.Represents.of_value {F : Fmt} {b : BitVec F.width} {neg : Bool} {x : ℚ} {v : FValue} (hv : F.value b = v)
    (hfin : v.isFinite = true) (hx : v.toRat = (if neg then -1 else 1) * x) (hneg : v.neg = neg := by rfl) :
    F.Represents b neg x := by
  subst hv; exact ⟨hfin, hneg, hx⟩

section Patterns

variable (F : Fmt) (neg : Bool)

theorem Fmt.value_pack_normal {ef t : Nat} (h0 : 0 < ef) (he : ef < 2 ^ F.expBits - 1) (ht : t < 2 ^ F.fracBits) :
    F.value (F.pack neg ef t) = .normal neg (2 ^ F.fracBits + t) ((ef : Int) - F.bias - F.fracBits) := by
  have he' : ef < 2 ^ F.expBits := by omega
  have hexp := F.expField_pack neg he' ht
  rw [F.value_normal _ (by omega) (by omega), F.msb_pack neg he' ht, hexp, F.fracField_pack neg he' ht]

/-- The last number of the grid of the subnormals is the first normal number. -/
theorem Fmt.pack_carry : F.pack neg 0 (2 ^ F.fracBits) = F.pack neg 1 0 := by
  rw [Fmt.pack, Fmt.pack, zero_mul, one_mul, add_zero, add_zero]

/-- `k` units of the smallest positive number, up to the smallest normal one. -/
theorem Fmt.value_pack_subnormal {k : Nat} (hk : k ≤ 2 ^ F.fracBits) :
    F.Represents (F.pack neg 0 k) neg (k * 2 ^ (F.emin - F.fracBits)) := by
  rcases hk.lt_or_eq with hlt | rfl
  · have he : 0 < 2 ^ F.expBits := by positivity
    have hexp := F.expField_pack neg he hlt
    have hfrac := F.fracField_pack neg he hlt
    by_cases h0 : k = 0
    · have hv := F.value_zero _ hexp (hfrac.trans h0)
      rw [F.msb_pack neg he hlt] at hv
      exact .of_value hv rfl (by simp [FValue.toRat, h0])
    · have hv := F.value_subnormal _ hexp (hfrac.trans_ne h0)
      rw [F.msb_pack neg he hlt, hfrac] at hv
      exact .of_value hv rfl (mul_assoc _ _ _)
  · have htop : 1 < 2 ^ F.expBits - 1 := by have := F.bias_pos; rw [F.two_pow_expBits]; omega
    rw [F.pack_carry]
    refine .of_value (F.value_pack_normal neg one_pos htop (by positivity)) rfl ?_
    rw [FValue.toRat, mul_assoc, add_zero]
    rfl

end Patterns

/-! ### Rounding to a format (R405 steps 2 and 3) -/

theorem two_pow_mul_zpow (n : Nat) (g : Int) : ((2 ^ n : Nat) : ℚ) * 2 ^ g = 2 ^ ((n : Int) + g) := by
  rw [Nat.cast_pow, Nat.cast_ofNat, ← zpow_natCast, zpow_add₀ two_ne_zero]

/-- A number between two neighbouring powers of two. -/
theorem two_zpow_le_iff {x : ℚ} {top n : Int} (h0 : 2 ^ top ≤ x) (h1 : x < 2 ^ (top + 1)) :
    (2 : ℚ) ^ n ≤ x ↔ n ≤ top := by
  constructor
  · intro h
    exact Int.lt_add_one_iff.1 ((zpow_lt_zpow_iff_right₀ one_lt_two).1 (h.trans_lt h1))
  · intro h
    exact (zpow_le_zpow_right₀ one_le_two h).trans h0

theorem log2_bounds {m : Nat} (hm : 0 < m) (e : Int) :
    (2 : ℚ) ^ (e + m.log2) ≤ m * 2 ^ e ∧ (m : ℚ) * 2 ^ e < 2 ^ (e + m.log2 + 1) := by
  have h0 : ((2 ^ m.log2 : Nat) : ℚ) ≤ m := by exact_mod_cast Nat.log2_self_le hm.ne'
  have h1 : (m : ℚ) < (2 ^ (m.log2 + 1) : Nat) := by exact_mod_cast Nat.lt_log2_self
  rw [add_assoc, ← Nat.cast_succ, add_comm e, ← two_pow_mul_zpow, add_comm e, ← two_pow_mul_zpow]
  exact ⟨mul_le_mul_of_nonneg_right h0 (by positivity), mul_lt_mul_of_pos_right h1 (by positivity)⟩

/-- The grid of the precision of the format at the magnitude `m * 2 ^ e`. -/
def Fmt.grid (F : Fmt) (m : Nat) (e : Int) : Int := e + m.log2 - F.fracBits

/-- The magnitude rounded to the precision of the format, in units of `F.grid m e`. -/
def Fmt.atPrecision (F : Fmt) (rm : Rounding) (neg : Bool) (m : Nat) (e : Int) : Nat × Bool :=
  roundToGrid rm neg m e (F.grid m e)

/-- The magnitude rounded to the grid of the subnormals. -/
def Fmt.atSubnormal (F : Fmt) (rm : Rounding) (neg : Bool) (m : Nat) (e : Int) : Nat × Bool :=
  roundToGrid rm neg m e (F.emin - F.fracBits)

section Round

variable (F : Fmt) (rm : Rounding) (neg : Bool) {m : Nat} (e : Int)

theorem Fmt.round_eq : F.round rm neg m e =
    let k := (F.atPrecision rm neg m e).1
    let top : Int := if k = 2 ^ (F.fracBits + 1) then e + m.log2 + 1 else e + m.log2
    if (F.bias : Int) < top then (F.overflow rm neg, flagOF ||| flagNX)
    else if F.emin ≤ top then
      (F.pack neg (top + F.bias).toNat (if k = 2 ^ (F.fracBits + 1) then 0 else k - 2 ^ F.fracBits),
        nxIf (F.atPrecision rm neg m e).2)
    else (F.pack neg 0 (F.atSubnormal rm neg m e).1,
      if (F.atSubnormal rm neg m e).2 then flagUF ||| flagNX else flagNone) := rfl

/-- The number rounded to the precision of the format has the significand `2 ^ fracBits + frac` at the exponent `top`,
which decides between overflow, a normal and a subnormal result. -/
theorem Fmt.round_by_top (hm : 0 < m) : ∃ (top : Int) (frac : Nat), frac < 2 ^ F.fracBits ∧ e + m.log2 ≤ top ∧
    ((F.atPrecision rm neg m e).1 : ℚ) * 2 ^ F.grid m e = (2 ^ F.fracBits + frac : Nat) * 2 ^ (top - F.fracBits) ∧
    F.round rm neg m e =
      if (F.bias : Int) < top then (F.overflow rm neg, flagOF ||| flagNX)
      else if F.emin ≤ top then (F.pack neg (top + F.bias).toNat frac, nxIf (F.atPrecision rm neg m e).2)
      else (F.pack neg 0 (F.atSubnormal rm neg m e).1,
        if (F.atSubnormal rm neg m e).2 then flagUF ||| flagNX else flagNone) := by
  have hround : rm.OnGrid neg (m * 2 ^ e) (F.grid m e) (F.atPrecision rm neg m e) := roundToGrid_onGrid rm neg m e _
  have hgrid : ∀ n : Nat, (n : Int) + F.grid m e = e + m.log2 + (n - F.fracBits) := fun n => by
    unfold Fmt.grid; omega
  obtain ⟨hlow, hhigh⟩ := log2_bounds hm e
  have hge : 2 ^ F.fracBits ≤ (F.atPrecision rm neg m e).1 :=
    hround.ge (by rw [two_pow_mul_zpow, hgrid, sub_self, add_zero]; exact hlow)
  have hle : (F.atPrecision rm neg m e).1 ≤ 2 ^ (F.fracBits + 1) :=
    hround.le (by rw [two_pow_mul_zpow, hgrid, Nat.cast_succ, add_sub_cancel_left]; exact hhigh.le)
  rw [F.round_eq]
  by_cases hcarry : (F.atPrecision rm neg m e).1 = 2 ^ (F.fracBits + 1)
  · refine ⟨e + m.log2 + 1, 0, by positivity, by omega, ?_, by simp only [if_pos hcarry]⟩
    rw [hcarry, add_zero, two_pow_mul_zpow, two_pow_mul_zpow, hgrid]
    congr 1
    push_cast
    omega
  · refine ⟨e + m.log2, (F.atPrecision rm neg m e).1 - 2 ^ F.fracBits, by rw [pow_succ] at *; omega, le_rfl, ?_,
      by simp only [if_neg hcarry]⟩
    rw [Nat.add_sub_cancel' hge]; rfl

/-- A significand of full precision lies in the binade of its top. -/
theorem Fmt.binade_of_frac {top : Int} {frac : Nat} (hf : frac < 2 ^ F.fracBits) :
    (2 : ℚ) ^ top ≤ (2 ^ F.fracBits + frac : Nat) * 2 ^ (top - F.fracBits) ∧
      ((2 ^ F.fracBits + frac : Nat) : ℚ) * 2 ^ (top - F.fracBits) < 2 ^ (top + 1) := by
  have h0 : (2 : ℚ) ^ top = (2 ^ F.fracBits : Nat) * 2 ^ (top - F.fracBits) := by
    rw [two_pow_mul_zpow, add_sub_cancel]
  have h1 : (2 : ℚ) ^ (top + 1) = (2 ^ (F.fracBits + 1) : Nat) * 2 ^ (top - F.fracBits) := by
    rw [two_pow_mul_zpow]
    congr 1
    push_cast
    omega
  rw [h1, h0]
  constructor
  · exact mul_le_mul_of_nonneg_right (by exact_mod_cast Nat.le_add_right _ _) (by positivity)
  · refine mul_lt_mul_of_pos_right ?_ (by positivity)
    rw [pow_succ]
    exact_mod_cast (by omega : 2 ^ F.fracBits + frac < 2 ^ F.fracBits * 2)

/-- The direction in which an overflow goes to an infinity (R405 step 3). -/
def Rounding.Outward (rm : Rounding) (neg : Bool) : Prop :=
  rm = .rne ∨ rm = .rmm ∨ (rm = .rup ∧ neg = false) ∨ (rm = .rdn ∧ neg = true)

theorem Fmt.value_of_maxFinite :
    F.value (F.maxFinite neg) = .normal neg (2 ^ (F.fracBits + 1) - 1) (F.bias - F.fracBits) := by
  have htop := F.two_pow_expBits
  have hb := F.bias_pos
  have hpos : 0 < 2 ^ F.fracBits := by positivity
  rw [Fmt.maxFinite, F.value_pack_normal neg (by omega) (by omega) (by omega), htop]
  congr 1
  · rw [pow_succ]; omega
  · omega

theorem Fmt.value_of_overflow :
    (rm.Outward neg → F.value (F.overflow rm neg) = .infinite neg) ∧
      (¬ rm.Outward neg →
        F.value (F.overflow rm neg) = .normal neg (2 ^ (F.fracBits + 1) - 1) (F.bias - F.fracBits)) := by
  rw [← F.value_of_maxFinite, ← F.value_of_infinity]
  unfold Rounding.Outward Fmt.overflow
  cases rm <;> cases neg <;> simp

/-- Beyond the largest finite number: an overflow. -/
theorem Fmt.round_of_top_le (hm : 0 < m)
    (h : (2 : ℚ) ^ ((F.bias : Int) + 1) ≤ (F.atPrecision rm neg m e).1 * 2 ^ F.grid m e) :
    F.round rm neg m e = (F.overflow rm neg, flagOF ||| flagNX) := by
  obtain ⟨top, frac, hf, -, hx, hround⟩ := F.round_by_top rm neg e hm
  obtain ⟨h0, h1⟩ := F.binade_of_frac (top := top) hf
  rw [hx, two_zpow_le_iff h0 h1] at h
  rw [hround, if_pos (by omega)]

/-- From `2 ^ emin` up to there: the number rounded to the precision of the format. -/
theorem Fmt.round_of_normal (hm : 0 < m)
    (hlt : (F.atPrecision rm neg m e).1 * 2 ^ F.grid m e < (2 : ℚ) ^ ((F.bias : Int) + 1))
    (hge : (2 : ℚ) ^ F.emin ≤ (F.atPrecision rm neg m e).1 * 2 ^ F.grid m e) :
    F.Represents (F.round rm neg m e).1 neg ((F.atPrecision rm neg m e).1 * 2 ^ F.grid m e) ∧
      (F.round rm neg m e).2 = nxIf (F.atPrecision rm neg m e).2 := by
  obtain ⟨top, frac, hf, -, hx, hround⟩ := F.round_by_top rm neg e hm
  obtain ⟨h0, h1⟩ := F.binade_of_frac (top := top) hf
  rw [hx] at hlt hge ⊢
  rw [← not_le, two_zpow_le_iff h0 h1] at hlt
  rw [two_zpow_le_iff h0 h1] at hge
  have htop := F.two_pow_expBits
  have hexp : ((top + F.bias).toNat : Int) = top + F.bias := by unfold Fmt.emin at hge; omega
  have hv := F.value_pack_normal neg (ef := (top + F.bias).toNat) (by unfold Fmt.emin at hge; omega) (by omega) hf
  rw [hexp, add_sub_cancel_right] at hv
  rw [hround, if_neg (by omega), if_pos hge]
  exact ⟨.of_value hv rfl (mul_assoc _ _ _), rfl⟩

/-- Below `2 ^ emin`: the number rounded to the grid of the subnormals. -/
theorem Fmt.round_of_subnormal (hm : 0 < m)
    (hlt : (F.atPrecision rm neg m e).1 * 2 ^ F.grid m e < (2 : ℚ) ^ F.emin) :
    F.Represents (F.round rm neg m e).1 neg ((F.atSubnormal rm neg m e).1 * 2 ^ (F.emin - F.fracBits)) ∧
      (F.round rm neg m e).2 = if (F.atSubnormal rm neg m e).2 then flagUF ||| flagNX else flagNone := by
  obtain ⟨top, frac, hf, hle, hx, hround⟩ := F.round_by_top rm neg e hm
  obtain ⟨h0, h1⟩ := F.binade_of_frac (top := top) hf
  rw [hx, ← not_le, two_zpow_le_iff h0 h1] at hlt
  have hb := F.bias_pos
  have hsub : (F.atSubnormal rm neg m e).1 ≤ 2 ^ F.fracBits := by
    refine (roundToGrid_onGrid rm neg m e _).le ?_
    rw [two_pow_mul_zpow, add_sub_cancel]
    exact (log2_bounds hm e).2.le.trans (zpow_le_zpow_right₀ one_le_two (by omega))
  rw [hround, if_neg (by unfold Fmt.emin at hlt; omega), if_neg hlt]
  exact ⟨F.value_pack_subnormal neg hsub, rfl⟩

end Round

/-- Settles O56: `roundToGrid` by the remainder, and `Fmt.round` by where the number rounded to the precision of the
format lies. -/
theorem roundingPicksTheRightNeighbour : Obligations.RoundingPicksTheRightNeighbour := by
  refine ⟨fun rm neg m d e hd => roundToGrid_neighbour rm neg m e hd, fun rm neg m d e => ?_, ?_⟩
  · rw [roundToGrid_finer rm neg m (by omega), add_sub_cancel_left, Int.toNat_natCast]
  · intro F rm neg m e hm r v g ru ruNum g2 rd outward sign top emin
    refine ⟨fun h => ?_, fun h => ?_⟩
    · have hr := F.round_of_top_le rm neg e hm h
      have hv := F.value_of_overflow rm neg
      have hvalue : v = F.value (F.overflow rm neg) := congrArg (fun r => F.value r.1) hr
      exact ⟨congrArg Prod.snd hr, fun ho => hvalue.trans (hv.1 ho), fun ho => hvalue.trans (hv.2 ho)⟩
    · by_cases hn : emin ≤ ruNum
      · obtain ⟨⟨hfin, hneg, hval⟩, hfl⟩ := F.round_of_normal rm neg e hm h hn
        exact ⟨hfin, hneg, fun _ => ⟨hval, hfl⟩, fun hlt => absurd hn hlt.not_ge⟩
      · obtain ⟨⟨hfin, hneg, hval⟩, hfl⟩ := F.round_of_subnormal rm neg e hm (not_le.1 hn)
        exact ⟨hfin, hneg, fun hge => absurd hge hn, fun _ => ⟨hval, hfl⟩⟩

/-! ### Numbers of the format -/

/-- A number of the format is not changed by rounding, and raises nothing. -/
theorem Fmt.round_of_representable {F : Fmt} (rm : Rounding) (neg : Bool) {m : Nat} {e : Int} (hm : 0 < m)
    (hp : m < 2 ^ (F.fracBits + 1)) (hmin : F.emin - F.fracBits ≤ e) (hmax : e + m.log2 ≤ F.bias) :
    F.Represents (F.round rm neg m e).1 neg (m * 2 ^ e) ∧ (F.round rm neg m e).2 = flagNone := by
  have finer : ∀ {g : Int}, g ≤ e →
      ((roundToGrid rm neg m e g).1 : ℚ) * 2 ^ g = m * 2 ^ e ∧ (roundToGrid rm neg m e g).2 = false := fun hg => by
    rw [roundToGrid_finer rm neg m hg]
    refine ⟨?_, rfl⟩
    push_cast
    rw [mul_assoc, two_pow_toNat_mul_zpow hg]
  have hlog : m.log2 < F.fracBits + 1 := (Nat.log2_lt hm.ne').2 hp
  obtain ⟨hx, hx2⟩ := finer (g := F.grid m e) (by unfold Fmt.grid; omega)
  obtain ⟨hs, hs2⟩ := finer hmin
  have hlt : (m : ℚ) * 2 ^ e < 2 ^ ((F.bias : Int) + 1) :=
    (log2_bounds hm e).2.trans_le (zpow_le_zpow_right₀ one_le_two (by omega))
  rcases le_or_gt ((2 : ℚ) ^ F.emin) (m * 2 ^ e) with h | h
  · have hr := F.round_of_normal rm neg e hm (hx.trans_lt hlt) (h.trans_eq hx.symm)
    rw [Fmt.atPrecision, hx, hx2] at hr
    exact hr
  · have hr := F.round_of_subnormal rm neg e hm (hx.trans_lt h)
    rw [Fmt.atSubnormal, hs, hs2] at hr
    exact hr

/-- A number has one pattern of each sign. -/
theorem Fmt.Represents.unique {F : Fmt} {a b : BitVec F.width} {neg : Bool} {x : ℚ} (ha : F.Represents a neg x)
    (hb : F.Represents b neg x) : a = b := by
  have msb : ∀ {c : BitVec F.width}, F.Represents c neg x → c.msb = neg := fun h =>
    (Fmt.neg_value (FValue.isNaN_of_isFinite h.finite)).symm.trans h.sign
  exact Fmt.eq_of_toRat_eq ha.finite hb.finite ((msb ha).trans (msb hb).symm) (ha.number.trans hb.number.symm)

section Fields

variable {F : Fmt} {b : BitVec F.width} {neg : Bool} {m : Nat} {e : Int}

theorem Fmt.fields_of_normal (h : F.value b = .normal neg m e) :
    neg = b.msb ∧ m = 2 ^ F.fracBits + F.fracField b ∧ e = (F.expField b : Int) - F.bias - F.fracBits ∧
      0 < F.expField b ∧ F.expField b ≤ 2 * F.bias := by
  have hclass := F.value_class b
  rw [h] at hclass
  cases hclass with
  | normal h0 he =>
    have hlt := F.expField_lt b
    have htop := F.two_pow_expBits
    exact ⟨rfl, rfl, rfl, Nat.pos_of_ne_zero h0, by omega⟩

theorem Fmt.fields_of_subnormal (h : F.value b = .subnormal neg m e) :
    neg = b.msb ∧ m = F.fracField b ∧ e = F.emin - F.fracBits ∧ F.expField b = 0 ∧ F.fracField b ≠ 0 := by
  have hclass := F.value_class b
  rw [h] at hclass
  cases hclass with
  | subnormal he ht => exact ⟨rfl, rfl, rfl, he, ht⟩

/-- The significand and the exponent of a finite non-zero value are those of a number of the format. -/
theorem Fmt.value_bounds (h : F.value b = .normal neg m e ∨ F.value b = .subnormal neg m e) :
    0 < m ∧ m < 2 ^ (F.fracBits + 1) ∧ F.emin - F.fracBits ≤ e ∧ e + m.log2 ≤ F.bias := by
  have hfrac := F.fracField_lt b
  have hbias := F.bias_pos
  have hpow := pow_succ 2 F.fracBits
  obtain h | h := h
  · obtain ⟨-, rfl, rfl, h0, he⟩ := Fmt.fields_of_normal h
    have hlog : (2 ^ F.fracBits + F.fracField b).log2 < F.fracBits + 1 := (Nat.log2_lt (by omega)).2 (by omega)
    refine ⟨by omega, by omega, ?_, by omega⟩
    unfold Fmt.emin; omega
  · obtain ⟨-, rfl, rfl, -, ht⟩ := Fmt.fields_of_subnormal h
    have hlog : (F.fracField b).log2 < F.fracBits := (Nat.log2_lt ht).2 hfrac
    refine ⟨by omega, by omega, le_rfl, ?_⟩
    unfold Fmt.emin; omega

/-- A finite non-zero pattern stands for its significand at its exponent. -/
theorem Fmt.represents_value (h : F.value b = .normal neg m e ∨ F.value b = .subnormal neg m e) :
    F.Represents b neg (m * 2 ^ e) := by
  obtain h | h := h <;> exact .of_value h rfl (mul_assoc _ _ _)

end Fields

/-- Settles O57: such a value is a number of the format, and a number has one pattern of each sign. -/
theorem representableValuesRoundToThemselves : Obligations.RepresentableValuesRoundToThemselves := by
  refine ⟨?_, ?_, fun F neg => ⟨F.value_of_infinity neg, F.value_of_zero neg⟩⟩
  · intro F rm b neg m e h
    obtain ⟨hm, hp, hmin, hmax⟩ := Fmt.value_bounds h
    obtain ⟨hr, hfl⟩ := Fmt.round_of_representable rm neg hm hp hmin hmax
    exact Prod.ext (hr.unique (Fmt.represents_value h)) hfl
  · intro F b neg m e ef t
    refine ⟨fun h => ?_, fun h => ?_⟩
    · obtain ⟨hneg, hm, he, h0, -⟩ := Fmt.fields_of_normal h
      exact ⟨hneg, hm, he, h0⟩
    · obtain ⟨hneg, hm, he, h0, -⟩ := Fmt.fields_of_subnormal h
      exact ⟨hneg, hm, he, h0⟩

end Sys2Proof.Machine
end

section
/-! PROOFS. Floating-point arithmetic on operands that are no NaN: the exact result rounded once, and the special
operands (46_f.md R413 to R423; 47_d.md R457 to R465; 48_q.md R494 to R502). -/

namespace Sys2Proof.Machine

/-! ### Classes of values -/

theorem FValue.isFinite_iff (v : FValue) : v.isFinite = true ↔ v.isNaN = false ∧ v.isInfinite = false := by
  simp [FValue.isFinite]

theorem FValue.of_infinite {v : FValue} (h : v.isInfinite = true) : v.isNaN = false ∧ v.isZero = false := by
  cases v with
  | infinite => exact ⟨rfl, rfl⟩
  | nan | zero | subnormal | normal => cases h

theorem FValue.of_zero {v : FValue} (h : v.isZero = true) :
    v.isNaN = false ∧ v.isInfinite = false ∧ v.magnitude = (0, 0) := by
  cases v with
  | zero => exact ⟨rfl, rfl, rfl⟩
  | nan | infinite | subnormal | normal => cases h

/-- The significand of a finite pattern is 0 for the zeros alone, and has at most the bits of the format. -/
theorem Fmt.magnitude_pos {F : Fmt} {b : BitVec F.width} (h : (F.value b).isFinite = true)
    (hz : (F.value b).isZero = false) :
    0 < (F.value b).magnitude.1 ∧ (F.value b).magnitude.1 < 2 ^ (F.fracBits + 1) := by
  cases hv : F.value b with
  | nan | infinite => rw [hv] at h; cases h
  | zero => rw [hv] at hz; cases hz
  | subnormal neg m e =>
    obtain ⟨h0, h1, -⟩ := Fmt.value_bounds (.inr hv)
    exact ⟨h0, h1⟩
  | normal neg m e =>
    obtain ⟨h0, h1, -⟩ := Fmt.value_bounds (.inl hv)
    exact ⟨h0, h1⟩

/-! ### Numbers by sign and magnitude -/

theorem mul_two_zpow_neg_iff (x : ℚ) (e : Int) : x * 2 ^ e < 0 ↔ x < 0 := by
  simpa only [zero_mul] using mul_lt_mul_iff_left₀ (b := x) (c := 0) (show (0 : ℚ) < 2 ^ e by positivity)

section Numbers

variable (v : FValue)

theorem FValue.abs_toRat : |v.toRat| = v.magnitude.1 * 2 ^ v.exponent := by
  rw [v.toRat_eq, abs_mul, abs_of_pos (a := (2 : ℚ) ^ v.exponent) (by positivity), FValue.signed]
  cases v.neg <;> simp

theorem FValue.toRat_neg_iff (h : 0 < v.magnitude.1) : v.toRat < 0 ↔ v.neg = true := by
  rw [v.toRat_eq, mul_two_zpow_neg_iff, Int.cast_lt_zero, FValue.signed]
  split <;> simp_all

end Numbers

theorem Fmt.toRat_eq_zero_iff {F : Fmt} {b : BitVec F.width} (h : (F.value b).isFinite = true) :
    (F.value b).toRat = 0 ↔ (F.value b).isZero = true := by
  cases hz : (F.value b).isZero with
  | true =>
    obtain ⟨-, -, hm⟩ := FValue.of_zero hz
    exact iff_of_true (abs_eq_zero.1 (by rw [FValue.abs_toRat, hm]; simp)) rfl
  | false =>
    have hpos : (0 : ℚ) < (F.value b).magnitude.1 := by exact_mod_cast (Fmt.magnitude_pos h hz).1
    refine iff_of_false (fun h0 => ?_) Bool.false_ne_true
    have habs := (F.value b).abs_toRat
    rw [h0, abs_zero] at habs
    exact (mul_pos hpos (by positivity)).ne habs

theorem Fmt.toRat_ne_zero {F : Fmt} {b : BitVec F.width} (h : (F.value b).isFinite = true)
    (hz : (F.value b).isZero = false) : (F.value b).toRat ≠ 0 :=
  mt (Fmt.toRat_eq_zero_iff h).1 (by simp [hz])

theorem Fmt.isZero_eq_false {F : Fmt} {b : BitVec F.width} (h : (F.value b).isFinite = true)
    (hx : (F.value b).toRat ≠ 0) : (F.value b).isZero = false :=
  Bool.eq_false_iff.2 (mt (Fmt.toRat_eq_zero_iff h).2 hx)

theorem Fmt.toRat_neg_iff {F : Fmt} {b : BitVec F.width} (h : (F.value b).isFinite = true)
    (hx : (F.value b).toRat ≠ 0) : (F.value b).toRat < 0 ↔ (F.value b).neg = true :=
  FValue.toRat_neg_iff _ (Fmt.magnitude_pos h (Fmt.isZero_eq_false h hx)).1

/-- Two numbers that cancel have opposite signs. -/
theorem sign_ne_of_sum_zero {x y : ℚ} {p q : Bool} (hx : x ≠ 0) (h : x + y = 0) (hp : x < 0 ↔ p = true)
    (hq : y < 0 ↔ q = true) : p ≠ q := by
  rintro rfl
  have hxy : x < 0 ↔ y < 0 := hp.trans hq.symm
  rcases lt_or_gt_of_ne hx with hlt | hgt
  · linarith [hxy.1 hlt]
  · linarith [hxy.2 (by linarith)]

/-- The sign of a product or a quotient of two numbers that are not zero. -/
theorem decide_mul_neg {x y : ℚ} {p q : Bool} (hx : x ≠ 0) (hy : y ≠ 0) (hp : x < 0 ↔ p = true)
    (hq : y < 0 ↔ q = true) : (p != q) = decide (x * y < 0) := by
  rw [Bool.eq_iff_iff, decide_eq_true_iff, mul_neg_iff]
  have hx' : 0 < x ↔ p = false := by rw [← Bool.not_eq_true, ← hp, not_lt, hx.symm.le_iff_lt]
  have hy' : 0 < y ↔ q = false := by rw [← Bool.not_eq_true, ← hq, not_lt, hy.symm.le_iff_lt]
  rw [hx', hy', hp, hq]
  cases p <;> cases q <;> decide

/-! ### The exact result rounded once -/

section Exact

variable {F : Fmt} (rm : Rounding) {x : ℚ} {e : Int}

theorem Fmt.roundsTo_of_exact {neg : Bool} {m : Nat} (hm : 0 < m) (hx : (m : ℚ) * 2 ^ e = |x|)
    (hneg : neg = decide (x < 0)) : F.RoundsTo rm x (F.round rm neg m e) :=
  ⟨m, e, ⟨hm, .inl hx⟩, by rw [hneg]⟩

theorem Fmt.roundSum_of_ne_zero {n : Int} (hx : n * 2 ^ e = x) (h : x ≠ 0) (zeroNeg : Bool) :
    F.RoundsTo rm x (F.roundSum rm zeroNeg n e) := by
  have hn : n ≠ 0 := by
    rintro rfl
    exact h (by rw [← hx, Int.cast_zero, zero_mul])
  have hpow : (0 : ℚ) < 2 ^ e := by positivity
  rw [Fmt.roundSum, if_neg hn]
  refine Fmt.roundsTo_of_exact rm (Int.natAbs_pos.2 hn) ?_ ?_
  · rw [← hx, abs_mul, abs_of_pos hpow, Nat.cast_natAbs, Int.cast_abs]
  · rw [← hx, decide_eq_decide, mul_two_zpow_neg_iff, Int.cast_lt_zero]

theorem Fmt.roundSum_of_zero {n : Int} (hx : n * 2 ^ e = x) (h : x = 0) (zeroNeg : Bool) :
    F.roundSum rm zeroNeg n e = (F.zero zeroNeg, flagNone) := by
  have hn : n = 0 := by
    rw [h, mul_eq_zero, or_iff_left (by positivity)] at hx
    exact_mod_cast hx
  rw [Fmt.roundSum, if_pos hn]

end Exact

/-- The sum of two scaled significands is that of the numbers. -/
theorem scaled_sum (n n' : Int) (e e' : Int) :
    ((scaleTo n e (min e e') + scaleTo n' e' (min e e') : Int) : ℚ) * 2 ^ min e e' = n * 2 ^ e + n' * 2 ^ e' := by
  rw [Int.cast_add, add_mul, scaleTo_mul n (min_le_left _ _), scaleTo_mul n' (min_le_right _ _)]

/-! ### A quotient or a root with a last bit for the remainder -/

/-- `q` with a last bit that tells whether the number is `q * 2 ^ e` stands for the number. -/
theorem standsFor_sticky {p q : Nat} {e : Int} {equal below above : ℚ → Prop} {ends : Prop} [Decidable ends]
    (hq : 2 ^ (p + 1) ≤ q) (heq : ends → equal (q * 2 ^ e))
    (hne : ¬ ends → below (q * 2 ^ e) ∧ above ((q + 1) * 2 ^ e)) :
    standsFor p (2 * q + if ends then 0 else 1) (e - 1) equal below above := by
  have hpos : 0 < 2 ^ (p + 1) := by positivity
  have hpow : (2 : ℚ) ^ e = 2 * 2 ^ (e - 1) := by rw [← zpow_one_add₀ two_ne_zero, add_sub_cancel]
  by_cases h : ends
  · rw [if_pos h]
    refine ⟨by omega, .inl ?_⟩
    have hval : ((2 * q + 0 : Nat) : ℚ) * 2 ^ (e - 1) = q * 2 ^ e := by rw [hpow]; push_cast; ring
    rw [hval]
    exact heq h
  · rw [if_neg h]
    refine ⟨by omega, .inr ⟨by omega, by rw [pow_succ]; omega, ?_, ?_⟩⟩
    · have hval : (((2 * q + 1 : Nat) : ℚ) - 1) * 2 ^ (e - 1) = q * 2 ^ e := by rw [hpow]; push_cast; ring
      rw [hval]
      exact (hne h).1
    · have hval : (((2 * q + 1 : Nat) : ℚ) + 1) * 2 ^ (e - 1) = (q + 1) * 2 ^ e := by rw [hpow]; push_cast; ring
      rw [hval]
      exact (hne h).2

theorem Fmt.roundQuotient_roundsTo {F : Fmt} (rm : Rounding) {neg : Bool} {m1 m2 : Nat} {e : Int} {x : ℚ} (h1 : 0 < m1)
    (h2 : 0 < m2) (hp : m2 < 2 ^ (F.fracBits + 1)) (hx : (m1 : ℚ) / m2 * 2 ^ e = |x|) (hneg : neg = decide (x < 0)) :
    F.RoundsTo rm x (F.roundQuotient rm neg m1 m2 e) := by
  have hm2 : (0 : ℚ) < m2 := by exact_mod_cast h2
  have hpow : ∀ E : Int, (0 : ℚ) < 2 ^ E := fun E => by positivity
  let sh := 2 * F.fracBits + 5
  let n := m1 * 2 ^ sh
  have hq : 2 ^ (F.fracBits + 1 + 1) ≤ n / m2 := by
    rw [Nat.le_div_iff_mul_le h2]
    calc 2 ^ (F.fracBits + 1 + 1) * m2
      _ ≤ 2 ^ (F.fracBits + 1 + 1) * 2 ^ (F.fracBits + 1) := Nat.mul_le_mul_left _ hp.le
      _ = 2 ^ (2 * F.fracBits + 3) := by rw [← pow_add]; congr 1; omega
      _ ≤ 2 ^ sh := Nat.pow_le_pow_right two_pos (by omega)
      _ ≤ n := Nat.le_mul_of_pos_left _ h1
  have hx' : |x| = ((n / m2 : Nat) + (n % m2 : Nat) / m2) * (2 : ℚ) ^ (e - sh) := by
    have hn : ((m2 * (n / m2) + n % m2 : Nat) : ℚ) = m1 * 2 ^ sh := by rw [Nat.div_add_mod]; simp [n]
    have hdiv : ((n / m2 : Nat) : ℚ) + (n % m2 : Nat) / m2 = m1 * 2 ^ sh / m2 := by
      rw [← hn]; push_cast; field_simp
    rw [← hx, hdiv, zpow_sub₀ two_ne_zero, zpow_natCast]
    field_simp
  refine ⟨_, _, standsFor_sticky hq (fun h => ?_) (fun h => ⟨?_, ?_⟩), by rw [← hneg]; rfl⟩
  · rw [hx', h, Nat.cast_zero, zero_div, add_zero]
  · have hr : (0 : ℚ) < (n % m2 : Nat) / m2 := div_pos (by exact_mod_cast Nat.pos_of_ne_zero h) hm2
    rw [hx']
    exact mul_lt_mul_of_pos_right (lt_add_of_pos_right _ hr) (hpow _)
  · have hr : ((n % m2 : Nat) : ℚ) / m2 < 1 := (div_lt_one hm2).2 (by exact_mod_cast Nat.mod_lt n h2)
    rw [hx']
    exact mul_lt_mul_of_pos_right (add_lt_add_right hr _) (hpow _)

/-! ### The integer square root -/

/-- The loop keeps `r * r ≤ n` and the root below `r + 2 ^ k`. -/
theorem isqrtLoop_spec (n k : Nat) {r : Nat} (h0 : r * r ≤ n) (h1 : n < (r + 2 ^ k) * (r + 2 ^ k)) :
    isqrtLoop n k r * isqrtLoop n k r ≤ n ∧ n < (isqrtLoop n k r + 1) * (isqrtLoop n k r + 1) := by
  induction k generalizing r with
  | zero => exact ⟨h0, h1⟩
  | succ k ih =>
    rw [pow_succ, mul_two, ← add_assoc] at h1
    rw [isqrtLoop]
    split
    · next h => exact ih h h1
    · next h => exact ih h0 (not_le.1 h)

theorem isqrt_spec (n : Nat) : isqrt n * isqrt n ≤ n ∧ n < (isqrt n + 1) * (isqrt n + 1) := by
  refine isqrtLoop_spec n _ (Nat.zero_le n) ?_
  rw [zero_add, ← pow_add]
  exact Nat.lt_log2_self.trans_le (Nat.pow_le_pow_right two_pos (by omega))

theorem le_isqrt {r n : Nat} (h : r * r ≤ n) : r ≤ isqrt n :=
  Nat.lt_succ_iff.1 (Nat.mul_self_lt_mul_self_iff.1 (h.trans_lt (isqrt_spec n).2))

/-- The integer root of `m * 2 ^ e` brought to more than the precision of the format, at an even exponent. -/
theorem Fmt.round_isqrt_roundsToRoot {F : Fmt} (rm : Rounding) {m n : Nat} {e : Int} (hm : 0 < m)
    (he : 2 * (e / 2) = e) (hn : n = m * 2 ^ (2 * (F.fracBits + 3))) :
    F.RoundsToRoot rm (m * 2 ^ e) (F.round rm false (2 * isqrt n + if isqrt n * isqrt n = n then 0 else 1)
      (e / 2 - (F.fracBits + 3 : Nat) - 1)) := by
  obtain ⟨hle, hlt⟩ := isqrt_spec n
  have hq : 2 ^ (F.fracBits + 1 + 1) ≤ isqrt n := by
    refine le_isqrt ?_
    rw [← pow_add, hn]
    exact (Nat.pow_le_pow_right two_pos (by omega)).trans (Nat.le_mul_of_pos_left _ hm)
  generalize hE : e / 2 - (F.fracBits + 3 : Nat) = E
  have hx : (m : ℚ) * 2 ^ e = n * (2 ^ E * 2 ^ E) := by
    have hexp : ((2 * (F.fracBits + 3) : Nat) : Int) + (E + E) = e := by push_cast at hE ⊢; omega
    rw [← zpow_add₀ two_ne_zero, hn, Nat.cast_mul, mul_assoc, two_pow_mul_zpow, hexp]
  have square : ∀ y : ℚ, y * 2 ^ E * (y * 2 ^ E) = y * y * (2 ^ E * 2 ^ E) := fun y => mul_mul_mul_comm _ _ _ _
  have hpow : (0 : ℚ) < 2 ^ E * 2 ^ E := by positivity
  refine ⟨_, _, standsFor_sticky hq (fun h => ?_) (fun h => ⟨?_, ?_⟩), rfl⟩ <;> rw [square, hx]
  · rw [← Nat.cast_mul, h]
  · refine mul_lt_mul_of_pos_right ?_ hpow
    exact_mod_cast lt_of_le_of_ne hle h
  · refine mul_lt_mul_of_pos_right ?_ hpow
    exact_mod_cast hlt

/-- An odd exponent is made even first. -/
theorem Fmt.roundSqrt_roundsToRoot {F : Fmt} (rm : Rounding) {m : Nat} {e : Int} (hm : 0 < m) :
    F.RoundsToRoot rm (m * 2 ^ e) (F.roundSqrt rm m e) := by
  unfold Fmt.roundSqrt
  by_cases hodd : e % 2 = 1
  · have hx : (m : ℚ) * 2 ^ e = (2 * m : Nat) * 2 ^ (e - 1) := by
      rw [zpow_sub_one₀ two_ne_zero]; push_cast; field_simp
    simp only [if_pos hodd]
    rw [hx]
    exact Fmt.round_isqrt_roundsToRoot rm (by omega) (by omega) rfl
  · simp only [if_neg hodd]
    exact Fmt.round_isqrt_roundsToRoot rm hm (by omega) rfl

/-! ### Infinite operands (R413) -/

section Infinite

variable {F : Fmt} (m : Rounding) {a b : BitVec F.width}

theorem Fmt.add_infinities (ha : (F.value a).isInfinite = true) (hb : (F.value b).isInfinite = true) :
    F.add m a b = if (F.value a).neg = (F.value b).neg then (a, flagNone) else (F.cNaN, flagNV) := by
  simp [Fmt.add, FValue.of_infinite ha, FValue.of_infinite hb, ha, hb, Fmt.infinity_neg_value ha]

theorem Fmt.add_infinite_finite (ha : (F.value a).isInfinite = true) (hb : (F.value b).isFinite = true) :
    F.add m a b = (a, flagNone) := by
  simp [Fmt.add, FValue.of_infinite ha, (FValue.isFinite_iff _).1 hb, ha, Fmt.infinity_neg_value ha]

theorem Fmt.add_finite_infinite (ha : (F.value a).isFinite = true) (hb : (F.value b).isInfinite = true) :
    F.add m a b = (b, flagNone) := by
  simp [Fmt.add, FValue.of_infinite hb, (FValue.isFinite_iff _).1 ha, hb, Fmt.infinity_neg_value hb]

theorem Fmt.mul_infinite (hna : (F.value a).isNaN = false) (hnb : (F.value b).isNaN = false)
    (h : (F.value a).isInfinite = true ∨ (F.value b).isInfinite = true) :
    F.mul m a b = if (F.value a).isZero || (F.value b).isZero then (F.cNaN, flagNV)
      else (F.infinity ((F.value a).neg != (F.value b).neg), flagNone) := by
  obtain h | h := h <;> simp [Fmt.mul, hna, hnb, h, FValue.of_infinite h]

theorem Fmt.div_infinities (ha : (F.value a).isInfinite = true) (hb : (F.value b).isInfinite = true) :
    F.div m a b = (F.cNaN, flagNV) := by
  simp [Fmt.div, FValue.of_infinite ha, FValue.of_infinite hb, ha, hb]

theorem Fmt.div_infinite_finite (ha : (F.value a).isInfinite = true) (hb : (F.value b).isFinite = true) :
    F.div m a b = (F.infinity ((F.value a).neg != (F.value b).neg), flagNone) := by
  simp [Fmt.div, FValue.of_infinite ha, (FValue.isFinite_iff _).1 hb, ha]

theorem Fmt.div_finite_infinite (ha : (F.value a).isFinite = true) (hb : (F.value b).isInfinite = true) :
    F.div m a b = (F.zero ((F.value a).neg != (F.value b).neg), flagNone) := by
  simp [Fmt.div, FValue.of_infinite hb, (FValue.isFinite_iff _).1 ha, hb]

end Infinite

/-! ### Finite operands (R413) -/

section Finite

variable {F : Fmt} (m : Rounding) {a b : BitVec F.width} (ha : (F.value a).isFinite = true)
  (hb : (F.value b).isFinite = true)

include ha hb

theorem Fmt.add_finite : F.add m a b =
    if ((F.value a).isZero && (F.value b).isZero) = true then
      (F.zero (if (F.value a).neg = (F.value b).neg then (F.value a).neg else m.zeroNeg), flagNone)
    else
      let g := Min.min (F.value a).exponent (F.value b).exponent
      F.roundSum m m.zeroNeg
        (scaleTo (F.value a).signed (F.value a).exponent g + scaleTo (F.value b).signed (F.value b).exponent g) g := by
  simp only [Fmt.add, (FValue.isFinite_iff _).1 ha, (FValue.isFinite_iff _).1 hb, Bool.or_self, Bool.and_self,
    Bool.false_eq_true, if_false]

theorem Fmt.add_roundsTo (h : (F.value a).toRat + (F.value b).toRat ≠ 0) :
    F.RoundsTo m ((F.value a).toRat + (F.value b).toRat) (F.add m a b) := by
  rw [Fmt.add_finite m ha hb, if_neg]
  · refine Fmt.roundSum_of_ne_zero m ?_ h _
    rw [scaled_sum, FValue.toRat_eq, FValue.toRat_eq]
  · rw [Bool.and_eq_true, ← Fmt.toRat_eq_zero_iff ha, ← Fmt.toRat_eq_zero_iff hb]
    rintro ⟨hx, hy⟩
    exact h (by rw [hx, hy, add_zero])

/-- A sum of zero: both operands are zeros, or they have opposite signs. -/
theorem Fmt.add_of_sum_zero (h : (F.value a).toRat + (F.value b).toRat = 0) :
    F.add m a b = (F.zero (if (F.value a).neg = (F.value b).neg then (F.value a).neg else m.zeroNeg), flagNone) := by
  rw [Fmt.add_finite m ha hb]
  split
  · rfl
  · next hz =>
    rw [Bool.and_eq_true, ← Fmt.toRat_eq_zero_iff ha, ← Fmt.toRat_eq_zero_iff hb] at hz
    have hx : (F.value a).toRat ≠ 0 := fun hx => hz ⟨hx, by linarith⟩
    have hy : (F.value b).toRat ≠ 0 := fun hy => hz ⟨by linarith, hy⟩
    rw [if_neg (sign_ne_of_sum_zero hx h (Fmt.toRat_neg_iff ha hx) (Fmt.toRat_neg_iff hb hy))]
    refine Fmt.roundSum_of_zero m ?_ h _
    rw [scaled_sum, FValue.toRat_eq, FValue.toRat_eq]

theorem Fmt.mul_finite : F.mul m a b =
    if ((F.value a).isZero || (F.value b).isZero) = true then
      (F.zero ((F.value a).neg != (F.value b).neg), flagNone)
    else F.round m ((F.value a).neg != (F.value b).neg) ((F.value a).magnitude.1 * (F.value b).magnitude.1)
      ((F.value a).exponent + (F.value b).exponent) := by
  simp only [Fmt.mul, (FValue.isFinite_iff _).1 ha, (FValue.isFinite_iff _).1 hb, Bool.or_self, Bool.and_false,
    Bool.false_and, Bool.false_eq_true, if_false]

theorem Fmt.mul_of_product_zero (h : (F.value a).toRat * (F.value b).toRat = 0) :
    F.mul m a b = (F.zero ((F.value a).neg != (F.value b).neg), flagNone) := by
  rw [Fmt.mul_finite m ha hb, if_pos]
  rwa [Bool.or_eq_true, ← Fmt.toRat_eq_zero_iff ha, ← Fmt.toRat_eq_zero_iff hb, ← mul_eq_zero]

theorem Fmt.mul_roundsTo (h : (F.value a).toRat * (F.value b).toRat ≠ 0) :
    F.RoundsTo m ((F.value a).toRat * (F.value b).toRat) (F.mul m a b) := by
  obtain ⟨hx, hy⟩ := mul_ne_zero_iff.1 h
  have hza := Fmt.isZero_eq_false ha hx
  have hzb := Fmt.isZero_eq_false hb hy
  rw [Fmt.mul_finite m ha hb, if_neg (by simp [hza, hzb])]
  refine Fmt.roundsTo_of_exact m (Nat.mul_pos (Fmt.magnitude_pos ha hza).1 (Fmt.magnitude_pos hb hzb).1) ?_
    (decide_mul_neg hx hy (Fmt.toRat_neg_iff ha hx) (Fmt.toRat_neg_iff hb hy))
  rw [abs_mul, FValue.abs_toRat, FValue.abs_toRat, zpow_add₀ two_ne_zero, Nat.cast_mul, mul_mul_mul_comm]

theorem Fmt.div_finite : F.div m a b =
    if ((F.value a).isZero && (F.value b).isZero) = true then (F.cNaN, flagNV)
    else if (F.value b).isZero = true then (F.infinity ((F.value a).neg != (F.value b).neg), flagDZ)
    else if (F.value a).isZero = true then (F.zero ((F.value a).neg != (F.value b).neg), flagNone)
    else F.roundQuotient m ((F.value a).neg != (F.value b).neg) (F.value a).magnitude.1 (F.value b).magnitude.1
      ((F.value a).exponent - (F.value b).exponent) := by
  simp only [Fmt.div, (FValue.isFinite_iff _).1 ha, (FValue.isFinite_iff _).1 hb, Bool.or_self, Bool.and_self,
    Bool.false_or, Bool.false_eq_true, if_false]

theorem Fmt.div_roundsTo (hza : (F.value a).isZero = false) (hzb : (F.value b).isZero = false) :
    F.RoundsTo m ((F.value a).toRat / (F.value b).toRat) (F.div m a b) := by
  have hx := Fmt.toRat_ne_zero ha hza
  have hy := Fmt.toRat_ne_zero hb hzb
  obtain ⟨hm1, -⟩ := Fmt.magnitude_pos ha hza
  obtain ⟨hm2, hp⟩ := Fmt.magnitude_pos hb hzb
  rw [Fmt.div_finite m ha hb, if_neg (by simp [hza]), if_neg (by simp [hzb]), if_neg (by simp [hza])]
  refine Fmt.roundQuotient_roundsTo m hm1 hm2 hp ?_ ?_
  · rw [abs_div, FValue.abs_toRat, FValue.abs_toRat, zpow_sub₀ two_ne_zero, div_mul_div_comm]
  · rw [div_eq_mul_inv]
    exact decide_mul_neg hx (inv_ne_zero hy) (Fmt.toRat_neg_iff ha hx) (inv_lt_zero.trans (Fmt.toRat_neg_iff hb hy))

end Finite

/-! ### Square root (R413) -/

section Root

variable {F : Fmt} (m : Rounding) {a : BitVec F.width}

theorem Fmt.sqrt_zero (h : (F.value a).isZero = true) : F.sqrt m a = (a, flagNone) := by
  simp [Fmt.sqrt, FValue.of_zero h, h]

theorem Fmt.sqrt_negative (hn : (F.value a).isNaN = false) (hz : (F.value a).isZero = false)
    (hneg : (F.value a).neg = true) : F.sqrt m a = (F.cNaN, flagNV) := by
  simp [Fmt.sqrt, hn, hz, hneg]

theorem Fmt.sqrt_infinity (h : (F.value a).isInfinite = true) (hneg : (F.value a).neg = false) :
    F.sqrt m a = (a, flagNone) := by
  have ha := Fmt.infinity_neg_value h
  rw [hneg] at ha
  simp [Fmt.sqrt, FValue.of_infinite h, h, hneg, ha]

theorem Fmt.sqrt_roundsToRoot (h : (F.value a).isFinite = true) (hz : (F.value a).isZero = false)
    (hneg : (F.value a).neg = false) : F.RoundsToRoot m (F.value a).toRat (F.sqrt m a) := by
  have hx : (F.value a).toRat = (F.value a).magnitude.1 * 2 ^ (F.value a).exponent := by
    rw [FValue.toRat_eq, FValue.signed, hneg]; rfl
  have hsqrt : F.sqrt m a = F.roundSqrt m (F.value a).magnitude.1 (F.value a).exponent := by
    simp [Fmt.sqrt, (FValue.isFinite_iff _).1 h, hz, hneg]
  rw [hx, hsqrt]
  exact Fmt.roundSqrt_roundsToRoot m (Fmt.magnitude_pos h hz).1

end Root

/-! ### The instructions -/

/-- An instruction that writes a floating-point result in its rounding mode. -/
theorem exec_fpRounded {i : Instr} {s : State} {rm : BitVec 3} {m : Rounding} (hm : s.rounding rm = some m) {F : Fmt}
    {rd : Reg} (r : Rounding → BitVec F.width × FFlags) (hlen : i.ilen = 4)
    (hexec : exec i s = withRounding i rm s fun m => fpResult i F rd (r m) s) (hw : i.wellFormed s.cfg = true) :
    exec i s = .next ((s.afterF rd (box s.cfg F (r m).1) 4).withFlags (r m).2) := by
  rw [hexec, withRounding_of_some i s hw hm, fpResult_eq, hlen]

/-- Settles O45: the instructions are `fpRounded`, and the operations go case by case of their operands. -/
theorem floatArithmeticResults : Obligations.FloatArithmeticResults := by
  refine ⟨?_, ?_⟩
  · intro s rd rs1 rs2 rm m hm go on
    have binary : ∀ {i : Instr} {F : Fmt} (op : Rounding → BitVec F.width → BitVec F.width → BitVec F.width × FFlags),
        i.ilen = 4 → exec i s = fpBinary i F op rd rs1 rs2 rm s →
        go i F (op m (s.readFp F rs1) (s.readFp F rs2)) :=
      fun op => exec_fpRounded hm fun m => op m (s.readFp _ rs1) (s.readFp _ rs2)
    have root : ∀ {i : Instr} (F : Fmt), i.ilen = 4 → exec i s = fpSqrt i F rd rs1 rm s →
        go i F (F.sqrt m (s.readFp F rs1)) := fun F => exec_fpRounded hm fun m => F.sqrt m (s.readFp F rs1)
    clear_value go -- `binary` and `root` say all that is needed of it
    have forms : ∀ {add sub mul div sqrt : Instr} (F : Fmt),
        add.ilen = 4 ∧ exec add s = fpBinary add F F.add rd rs1 rs2 rm s →
        sub.ilen = 4 ∧ exec sub s = fpBinary sub F F.sub rd rs1 rs2 rm s →
        mul.ilen = 4 ∧ exec mul s = fpBinary mul F F.mul rd rs1 rs2 rm s →
        div.ilen = 4 ∧ exec div s = fpBinary div F F.div rd rs1 rs2 rm s →
        sqrt.ilen = 4 ∧ exec sqrt s = fpSqrt sqrt F rd rs1 rm s → on F add sub mul div sqrt :=
      fun F ⟨hadd, eadd⟩ ⟨hsub, esub⟩ ⟨hmul, emul⟩ ⟨hdiv, ediv⟩ ⟨hsqrt, esqrt⟩ =>
        ⟨binary _ hadd eadd, binary _ hsub esub, binary _ hmul emul, binary _ hdiv ediv, root F hsqrt esqrt⟩
    exact ⟨forms .s ⟨rfl, rfl⟩ ⟨rfl, rfl⟩ ⟨rfl, rfl⟩ ⟨rfl, rfl⟩ ⟨rfl, rfl⟩,
      forms .d ⟨rfl, rfl⟩ ⟨rfl, rfl⟩ ⟨rfl, rfl⟩ ⟨rfl, rfl⟩ ⟨rfl, rfl⟩,
      forms .q ⟨rfl, rfl⟩ ⟨rfl, rfl⟩ ⟨rfl, rfl⟩ ⟨rfl, rfl⟩ ⟨rfl, rfl⟩⟩
  · intro F m a b va vb x y sign
    refine ⟨fun hna hnb => ⟨fun ha hb => ?_, fun ha hb => ?_, fun ha hb => ?_, fun ha hb => ?_⟩, fun hna => ?_⟩
    · have hz : (va.isZero || vb.isZero) = false := by
        rw [(FValue.of_infinite ha).2, (FValue.of_infinite hb).2]; rfl
      exact ⟨Fmt.add_infinities m ha hb, (Fmt.mul_infinite m hna hnb (.inl ha)).trans (if_neg (Bool.eq_false_iff.1 hz)),
        Fmt.div_infinities m ha hb⟩
    · have hmul := Fmt.mul_infinite m hna hnb (.inl ha)
      rw [(FValue.of_infinite ha).2, Bool.false_or] at hmul
      exact ⟨Fmt.add_infinite_finite m ha hb, Fmt.div_infinite_finite m ha hb, hmul⟩
    · have hmul := Fmt.mul_infinite m hna hnb (.inr hb)
      rw [(FValue.of_infinite hb).2, Bool.or_false] at hmul
      exact ⟨Fmt.add_finite_infinite m ha hb, Fmt.div_finite_infinite m ha hb, hmul⟩
    · have hdiv := Fmt.div_finite m ha hb
      refine ⟨Fmt.add_roundsTo m ha hb, Fmt.add_of_sum_zero m ha hb, Fmt.mul_roundsTo m ha hb,
        Fmt.mul_of_product_zero m ha hb, fun hza hzb => ?_, fun hza hzb => ?_, fun hza hzb => ?_,
        Fmt.div_roundsTo m ha hb⟩ <;> rw [hdiv]
      · exact if_pos (by rw [hza, hzb]; rfl)
      · rw [if_neg (by rw [hza]; simp), if_pos hzb]
      · rw [if_neg (by rw [hzb]; simp), if_neg (by rw [hzb]; simp), if_pos hza]
    · exact ⟨Fmt.sqrt_zero m, Fmt.sqrt_negative m hna, Fmt.sqrt_infinity m, Fmt.sqrt_roundsToRoot m⟩

/-! ### The fused operations (R419) -/

theorem FValue.fused_sum (v w u : FValue) :
    let g := min (v.exponent + w.exponent) u.exponent
    ((scaleTo (v.signed * w.signed) (v.exponent + w.exponent) g + scaleTo u.signed u.exponent g : Int) : ℚ) * 2 ^ g =
      v.toRat * w.toRat + u.toRat := by
  intro g
  rw [scaled_sum, v.toRat_eq, w.toRat_eq, u.toRat_eq, zpow_add₀ two_ne_zero, Int.cast_mul, mul_mul_mul_comm]

section Fused

variable {F : Fmt} (m : Rounding) {a b c : BitVec F.width}

theorem FValue.infinity_times_zero {v w : FValue} (hi : (v.isInfinite || w.isInfinite) = true)
    (hz : (v.isZero || w.isZero) = true) : (v.isInfinite && w.isZero || v.isZero && w.isInfinite) = true := by
  obtain h | h := Bool.or_eq_true_iff.1 hz <;> obtain ⟨-, hinf, -⟩ := FValue.of_zero h <;>
    simpa [hinf, h] using hi

/-- An infinity times a number that is not zero, and an addend that is no NaN. -/
theorem Fmt.fma_infinite (hna : (F.value a).isNaN = false) (hnb : (F.value b).isNaN = false)
    (hnc : (F.value c).isNaN = false) (h : ((F.value a).isInfinite || (F.value b).isInfinite) = true)
    (hza : (F.value a).isZero = false) (hzb : (F.value b).isZero = false) :
    F.fma m a b c =
      if (F.value c).isInfinite = true ∧ (F.value c).neg ≠ ((F.value a).neg != (F.value b).neg) then (F.cNaN, flagNV)
      else (F.infinity ((F.value a).neg != (F.value b).neg), flagNone) := by
  simp [Fmt.fma, hna, hnb, hnc, h, hza, hzb]

theorem Fmt.fma_infinite_addend (ha : (F.value a).isFinite = true) (hb : (F.value b).isFinite = true)
    (hc : (F.value c).isInfinite = true) : F.fma m a b c = (c, flagNone) := by
  simp [Fmt.fma, (FValue.isFinite_iff _).1 ha, (FValue.isFinite_iff _).1 hb, FValue.of_infinite hc, hc]

variable (ha : (F.value a).isFinite = true) (hb : (F.value b).isFinite = true) (hc : (F.value c).isFinite = true)

include ha hb hc

theorem Fmt.fma_finite : F.fma m a b c =
    let neg := (F.value a).neg != (F.value b).neg
    let e := (F.value a).exponent + (F.value b).exponent
    let g := Min.min e (F.value c).exponent
    F.roundSum m
      (if ((F.value a).isZero || (F.value b).isZero) && (F.value c).isZero && (F.value c).neg == neg then neg
        else m.zeroNeg)
      (scaleTo ((F.value a).signed * (F.value b).signed) e g + scaleTo (F.value c).signed (F.value c).exponent g)
      g := by
  simp only [Fmt.fma, (FValue.isFinite_iff _).1 ha, (FValue.isFinite_iff _).1 hb, (FValue.isFinite_iff _).1 hc,
    Bool.or_self, Bool.and_false, Bool.false_and, Bool.false_eq_true, if_false]

theorem Fmt.fma_roundsTo (h : (F.value a).toRat * (F.value b).toRat + (F.value c).toRat ≠ 0) :
    F.RoundsTo m ((F.value a).toRat * (F.value b).toRat + (F.value c).toRat) (F.fma m a b c) := by
  rw [Fmt.fma_finite m ha hb hc]
  exact Fmt.roundSum_of_ne_zero m (FValue.fused_sum _ _ _) h _

/-- A fused sum of zero: product and addend are both zero, or they have opposite signs. -/
theorem Fmt.fma_of_sum_zero (h : (F.value a).toRat * (F.value b).toRat + (F.value c).toRat = 0) :
    F.fma m a b c = (F.zero (if ((F.value a).neg != (F.value b).neg) = (F.value c).neg
      then (F.value a).neg != (F.value b).neg else m.zeroNeg), flagNone) := by
  have zeros : ((F.value a).neg != (F.value b).neg) = (F.value c).neg →
      (((F.value a).isZero || (F.value b).isZero) && (F.value c).isZero) = true := by
    intro hs
    have hp : (F.value a).toRat * (F.value b).toRat = 0 := by
      by_contra hp
      obtain ⟨hx, hy⟩ := mul_ne_zero_iff.1 hp
      have hz : (F.value c).toRat ≠ 0 := fun hz => hp (by linarith)
      have hprod := decide_mul_neg hx hy (Fmt.toRat_neg_iff ha hx) (Fmt.toRat_neg_iff hb hy)
      exact sign_ne_of_sum_zero hp h (by rw [hprod, decide_eq_true_iff]) (Fmt.toRat_neg_iff hc hz) hs
    rw [Bool.and_eq_true, Bool.or_eq_true, ← Fmt.toRat_eq_zero_iff ha, ← Fmt.toRat_eq_zero_iff hb,
      ← Fmt.toRat_eq_zero_iff hc, ← mul_eq_zero]
    exact ⟨hp, by linarith⟩
  rw [Fmt.fma_finite m ha hb hc]
  refine (Fmt.roundSum_of_zero m (FValue.fused_sum _ _ _) h _).trans ?_
  by_cases hs : ((F.value a).neg != (F.value b).neg) = (F.value c).neg
  · rw [zeros hs, if_pos hs, if_pos (by rw [hs]; simp)]
  · rw [if_neg hs, if_neg (by simpa using fun _ _ h => hs h.symm)]

end Fused

/-- Settles O46: the instructions are `fpFused` with its two negations, and `Fmt.fma` goes case by case. -/
theorem fusedResults : Obligations.FusedResults := by
  refine ⟨?_, ?_⟩
  · intro s rd rs1 rs2 rs3 rm m hm go on
    have form : ∀ {i : Instr} (F : Fmt) (negProduct negAddend : Bool), i.ilen = 4 →
        exec i s = fpFused i F negProduct negAddend rd rs1 rs2 rs3 rm s →
        go i F (F.fma m (if negProduct then F.negate (s.readFp F rs1) else s.readFp F rs1) (s.readFp F rs2)
          (if negAddend then F.negate (s.readFp F rs3) else s.readFp F rs3)) :=
      fun F _ _ => exec_fpRounded hm fun m => F.fma m _ (s.readFp F rs2) _
    clear_value go -- `form` says all that is needed of it
    have forms : ∀ {madd msub nmsub nmadd : Instr} (F : Fmt),
        madd.ilen = 4 ∧ exec madd s = fpFused madd F false false rd rs1 rs2 rs3 rm s →
        msub.ilen = 4 ∧ exec msub s = fpFused msub F false true rd rs1 rs2 rs3 rm s →
        nmsub.ilen = 4 ∧ exec nmsub s = fpFused nmsub F true false rd rs1 rs2 rs3 rm s →
        nmadd.ilen = 4 ∧ exec nmadd s = fpFused nmadd F true true rd rs1 rs2 rs3 rm s → on F madd msub nmsub nmadd :=
      fun F ⟨h1, e1⟩ ⟨h2, e2⟩ ⟨h3, e3⟩ ⟨h4, e4⟩ =>
        ⟨form F false false h1 e1, form F false true h2 e2, form F true false h3 e3, form F true true h4 e4⟩
    exact ⟨forms .s ⟨rfl, rfl⟩ ⟨rfl, rfl⟩ ⟨rfl, rfl⟩ ⟨rfl, rfl⟩, forms .d ⟨rfl, rfl⟩ ⟨rfl, rfl⟩ ⟨rfl, rfl⟩ ⟨rfl, rfl⟩,
      forms .q ⟨rfl, rfl⟩ ⟨rfl, rfl⟩ ⟨rfl, rfl⟩ ⟨rfl, rfl⟩⟩
  · intro F m a b c va vb vc x sign infinite
    refine ⟨F.negate_bits a, fun hna hnb hnc => ⟨fun hi hz => ?_, Fmt.fma_infinite m hna hnb hnc, fun hi hc => ?_,
      fun hi hc => ?_⟩⟩
    · exact F.fma_invalid m a b c (FValue.infinity_times_zero hi hz)
    all_goals
      obtain ⟨hia, hib⟩ := Bool.or_eq_false_iff.1 hi
      have ha := FValue.isFinite_of_not_infinite hna hia
      have hb := FValue.isFinite_of_not_infinite hnb hib
    · exact Fmt.fma_infinite_addend m ha hb hc
    · exact ⟨Fmt.fma_roundsTo m ha hb hc, Fmt.fma_of_sum_zero m ha hb hc⟩

end Sys2Proof.Machine
end

section
/-! PROOFS. The floating-point conversions: to an integer, from an integer, and between formats (46_f.md R429 to R438;
47_d.md R471 to R473, R478 to R486; 48_q.md R508 to R523). -/

namespace Sys2Proof.Machine

/-! ### Rounding to an integer (R405 step 1 with grid 1; R429) -/

/-- A magnitude with a sign. -/
def signedRat (neg : Bool) (y : ℚ) : ℚ := if neg then -y else y

/-- A rounded magnitude with a sign. -/
def signedInt (neg : Bool) (k : Nat) : Int := if neg then -(k : Int) else k

theorem cast_signedInt (neg : Bool) (k : Nat) : (signedInt neg k : ℚ) = signedRat neg k := by
  cases neg <;> simp [signedInt, signedRat]

theorem abs_signedRat (neg : Bool) {y : ℚ} (hy : 0 ≤ y) : |signedRat neg y| = y := by
  cases neg <;> simp [signedRat, abs_of_nonneg hy]

theorem abs_signedRat_sub (neg : Bool) (y z : ℚ) : |signedRat neg y - signedRat neg z| = |y - z| := by
  cases neg with
  | false => rfl
  | true => rw [← abs_neg (y - z)]; congr 1; simp only [signedRat, if_true]; ring

theorem FValue.toRat_eq_signedRat (v : FValue) : v.toRat = signedRat v.neg (v.magnitude.1 * 2 ^ v.exponent) := by
  rw [v.toRat_eq, FValue.signed, signedRat]
  split <;> push_cast <;> ring

/-- An integer rounds to itself. -/
theorem Rounding.isInteger_self (rm : Rounding) (i : Int) : rm.IsInteger i i := by
  cases rm <;> simp [Rounding.IsInteger]

section Between

variable {rm : Rounding} {neg : Bool} {q rem step : Nat} (h0 : 0 < rem) (h1 : rem < step)

include h0 h1

theorem frac_bounds : (0 : ℚ) < rem / step ∧ (rem : ℚ) / step < 1 := by
  have hs : (0 : ℚ) < step := by exact_mod_cast h0.trans h1
  have hr : (0 : ℚ) < rem := by exact_mod_cast h0
  exact ⟨div_pos hr hs, (div_lt_one hs).2 (by exact_mod_cast h1)⟩

/-- The remainder against half a step. -/
theorem frac_half : ((rem : ℚ) / step < 1 / 2 ↔ 2 * rem < step) ∧ ((1 : ℚ) / 2 < rem / step ↔ step < 2 * rem) := by
  have hs : (0 : ℚ) < step := by exact_mod_cast h0.trans h1
  rw [div_lt_div_iff₀ hs two_pos, div_lt_div_iff₀ two_pos hs, one_mul, mul_comm (rem : ℚ)]
  norm_cast

/-- Up to the next magnitude. -/
theorem Rounding.isInteger_of_up (hup : rm.Ups neg q rem step) :
    rm.IsInteger (signedRat neg (q + rem / step)) (signedInt neg (q + 1)) := by
  obtain ⟨hpos, hlt⟩ := frac_bounds h0 h1
  obtain ⟨hbelow, habove⟩ := frac_half h0 h1
  have hdist : |signedRat neg (q + rem / step) - signedInt neg (q + 1)| = 1 - rem / step := by
    rw [cast_signedInt, abs_signedRat_sub, abs_sub_comm, abs_of_nonneg] <;> push_cast <;> linarith
  have near : ¬ 2 * rem < step → (1 : ℚ) - rem / step ≤ 1 / 2 := fun h => by linarith [not_lt.1 (mt hbelow.1 h)]
  have tie : (1 : ℚ) - rem / step = 1 / 2 → ¬ step < 2 * rem := fun h => mt habove.2 (by linarith)
  cases rm with
  | rne =>
    simp only [Rounding.Ups] at hup
    refine ⟨hdist.trans_le (near (by omega)), fun h => ?_⟩
    have hodd := tie (hdist.symm.trans h)
    cases neg <;> simp only [signedInt] <;> omega
  | rtz => exact hup.elim
  | rdn =>
    obtain rfl : neg = true := hup
    constructor <;> simp only [signedRat, signedInt, if_true] <;> push_cast <;> linarith
  | rup =>
    obtain rfl : neg = false := hup
    constructor <;> simp only [signedRat, signedInt, Bool.false_eq_true, if_false] <;> push_cast <;> linarith
  | rmm =>
    simp only [Rounding.Ups] at hup
    refine ⟨hdist.trans_le (near (by omega)), fun _ => ?_⟩
    rw [Int.cast_abs, cast_signedInt, abs_signedRat _ (by positivity), abs_signedRat _ (by positivity)]
    push_cast
    linarith

/-- Down to the magnitude below. -/
theorem Rounding.isInteger_of_down (hup : ¬ rm.Ups neg q rem step) :
    rm.IsInteger (signedRat neg (q + rem / step)) (signedInt neg q) := by
  obtain ⟨hpos, hlt⟩ := frac_bounds h0 h1
  obtain ⟨hbelow, habove⟩ := frac_half h0 h1
  have hdist : |signedRat neg (q + rem / step) - signedInt neg q| = rem / step := by
    rw [cast_signedInt, abs_signedRat_sub, add_sub_cancel_left, abs_of_pos hpos]
  have near : ¬ step < 2 * rem → (rem : ℚ) / step ≤ 1 / 2 := fun h => not_lt.1 (mt habove.1 h)
  have tie : (rem : ℚ) / step = 1 / 2 → ¬ 2 * rem < step := fun h => mt hbelow.2 (by linarith)
  cases rm with
  | rne =>
    simp only [Rounding.Ups] at hup
    refine ⟨hdist.trans_le (near (by omega)), fun h => ?_⟩
    have heven := tie (hdist.symm.trans h)
    cases neg <;> simp only [signedInt] <;> omega
  | rtz =>
    have hq : (0 : ℚ) ≤ q := Nat.cast_nonneg q
    cases neg with
    | false =>
      simp only [Rounding.IsInteger, signedRat, signedInt, Bool.false_eq_true, if_false]
      rw [if_neg (by linarith)]
      constructor <;> push_cast <;> linarith
    | true =>
      simp only [Rounding.IsInteger, signedRat, signedInt, if_true]
      rw [if_pos (by linarith)]
      constructor <;> push_cast <;> linarith
  | rdn =>
    obtain rfl : neg = false := Bool.eq_false_iff.2 hup
    constructor <;> simp only [signedRat, signedInt, Bool.false_eq_true, if_false] <;> push_cast <;> linarith
  | rup =>
    obtain rfl : neg = true := by simpa [Rounding.Ups] using hup
    constructor <;> simp only [signedRat, signedInt, if_true] <;> push_cast <;> linarith
  | rmm =>
    simp only [Rounding.Ups] at hup
    exact ⟨hdist.trans_le (near (by omega)), fun h => absurd (tie (hdist.symm.trans h)) (by omega)⟩

end Between

/-- A magnitude rounded to the integers is rounded as the mode says of the number with its sign, and is inexact where
the integer is not the number. -/
theorem Rounding.OnGrid.isInteger {rm : Rounding} {neg : Bool} {y : ℚ} {r : Nat × Bool} (h : rm.OnGrid neg y 0 r) :
    rm.IsInteger (signedRat neg y) (signedInt neg r.1) ∧
      (r.2 = false ↔ (signedInt neg r.1 : ℚ) = signedRat neg y) := by
  have differ : ∀ {k : Nat}, y ≠ k → (signedInt neg k : ℚ) ≠ signedRat neg y := by
    intro k hk he
    rw [cast_signedInt] at he
    exact hk (by cases neg <;> simpa [signedRat] using he.symm)
  cases h with
  | exact h =>
    rw [zpow_zero, mul_one] at h
    rw [h, ← cast_signedInt]
    exact ⟨rm.isInteger_self _, iff_of_true rfl rfl⟩
  | up h0 h1 h hup =>
    obtain ⟨hpos, hlt⟩ := frac_bounds h0 h1
    rw [zpow_zero, mul_one] at h
    exact ⟨h ▸ Rounding.isInteger_of_up h0 h1 hup,
      iff_of_false Bool.noConfusion (differ (by rw [h]; push_cast; linarith))⟩
  | down h0 h1 h hup =>
    obtain ⟨hpos, hlt⟩ := frac_bounds h0 h1
    rw [zpow_zero, mul_one] at h
    exact ⟨h ▸ Rounding.isInteger_of_down h0 h1 hup,
      iff_of_false Bool.noConfusion (differ (by rw [h]; exact (lt_add_of_pos_right _ hpos).ne'))⟩

/-! ### To an integer (R429) -/

theorem intLo_eq (n : Nat) (sgn : Bool) : intLo n sgn = if sgn then -2 ^ (n - 1) else 0 := by
  rw [intLo]; push_cast; rfl

theorem intHi_eq (n : Nat) (sgn : Bool) : intHi n sgn = if sgn then 2 ^ (n - 1) - 1 else 2 ^ n - 1 := by
  rw [intHi]; push_cast; rfl

theorem intLo_le_intHi (n : Nat) (sgn : Bool) : intLo n sgn ≤ intHi n sgn := by
  have h0 : 0 < 2 ^ (n - 1) := by positivity
  have h1 : 0 < 2 ^ n := by positivity
  unfold intLo intHi
  split <;> omega

section ToInt

variable {F : Fmt} (m : Rounding) (n : Nat) (sgn : Bool) {a : BitVec F.width}

theorem Fmt.toInt_nan (h : (F.value a).isNaN = true) :
    F.toInt m n sgn a = (BitVec.ofInt n (intHi n sgn), flagNV) := if_pos h

theorem Fmt.toInt_infinite (h : (F.value a).isInfinite = true) :
    F.toInt m n sgn a = (BitVec.ofInt n (if (F.value a).neg then intLo n sgn else intHi n sgn), flagNV) :=
  (if_neg (by simp [FValue.of_infinite h])).trans (if_pos h)

/-- The magnitude of a value rounded to the integers. -/
def FValue.toGrid (v : FValue) (m : Rounding) : Nat × Bool := roundToGrid m v.neg v.magnitude.1 v.exponent 0

theorem Fmt.toInt_finite (h : (F.value a).isFinite = true) :
    let r := (F.value a).toGrid m
    let i := signedInt (F.value a).neg r.1
    F.toInt m n sgn a =
      if i < intLo n sgn then (BitVec.ofInt n (intLo n sgn), flagNV)
      else if intHi n sgn < i then (BitVec.ofInt n (intHi n sgn), flagNV)
      else (BitVec.ofInt n i, nxIf r.2) := by
  obtain ⟨hn, hi⟩ := (FValue.isFinite_iff _).1 h
  exact (if_neg (by simp [hn])).trans (if_neg (by simp [hi]))

/-- The clause of O51 on finite operands. -/
theorem Fmt.toInt_of_finite (h : (F.value a).isFinite = true) :
    ∃ i : Int, m.IsInteger (F.value a).toRat i ∧
      (i < intLo n sgn → F.toInt m n sgn a = (BitVec.ofInt n (intLo n sgn), flagNV)) ∧
      (intHi n sgn < i → F.toInt m n sgn a = (BitVec.ofInt n (intHi n sgn), flagNV)) ∧
      (intLo n sgn ≤ i → i ≤ intHi n sgn →
        F.toInt m n sgn a = (BitVec.ofInt n i, if (i : ℚ) = (F.value a).toRat then flagNone else flagNX)) := by
  have hround : m.OnGrid (F.value a).neg _ 0 ((F.value a).toGrid m) := roundToGrid_onGrid m _ _ _ 0
  obtain ⟨hint, hexact⟩ := hround.isInteger
  rw [← FValue.toRat_eq_signedRat] at hint hexact
  have hres := Fmt.toInt_finite m n sgn h
  refine ⟨_, hint, fun hlo => ?_, fun hhi => ?_, fun hlo hhi => ?_⟩
  · rw [hres, if_pos hlo]
  · rw [hres, if_neg ((intLo_le_intHi n sgn).trans hhi.le).not_gt, if_pos hhi]
  · rw [hres, if_neg hlo.not_gt, if_neg hhi.not_gt]
    simp only [← hexact, nxIf]
    cases ((F.value a).toGrid m).2 <;> rfl

end ToInt

/-! ### From an integer (R434) -/

theorem Fmt.ofInt_zero (F : Fmt) (m : Rounding) : F.ofInt m 0 = (F.zero false, flagNone) := rfl

theorem Fmt.ofInt_roundsTo (F : Fmt) (m : Rounding) {v : Int} (h : v ≠ 0) : F.RoundsTo m v (F.ofInt m v) :=
  Fmt.roundSum_of_ne_zero m (by rw [zpow_zero, mul_one]) (Int.cast_ne_zero.2 h) false

/-! ### Between formats (47_d.md R471) -/

theorem FValue.finite_cases {v : FValue} (h : v.isFinite = true) (hz : v.isZero = false) :
    ∃ neg m e, v = .normal neg m e ∨ v = .subnormal neg m e := by
  cases v with
  | nan | infinite => cases h
  | zero => cases hz
  | subnormal neg m e => exact ⟨neg, m, e, .inr rfl⟩
  | normal neg m e => exact ⟨neg, m, e, .inl rfl⟩

/-- A wider format has every number of a narrower one. -/
theorem Fmt.wider {F G : Fmt} (h : G.width ≤ F.width) :
    G.fracBits ≤ F.fracBits ∧ G.bias ≤ F.bias ∧ F.emin - F.fracBits ≤ G.emin - G.fracBits := by
  cases F <;> cases G <;> revert h <;> decide

section OfFormat

variable (F : Fmt) {G : Fmt} (m : Rounding) {a : BitVec G.width}

theorem Fmt.ofFormat_infinite (h : (G.value a).isInfinite = true) :
    F.ofFormat G m a = (F.infinity (G.value a).neg, flagNone) :=
  (if_neg (by simp [FValue.of_infinite h])).trans (if_pos h)

theorem Fmt.ofFormat_zero (h : (G.value a).isZero = true) :
    F.ofFormat G m a = (F.zero (G.value a).neg, flagNone) := by
  obtain ⟨hn, hi, -⟩ := FValue.of_zero h
  exact (if_neg (by simp [hn])).trans ((if_neg (by simp [hi])).trans (if_pos h))

theorem Fmt.ofFormat_number (h : (G.value a).isFinite = true) (hz : (G.value a).isZero = false) :
    F.ofFormat G m a = F.round m (G.value a).neg (G.value a).magnitude.1 (G.value a).exponent := by
  obtain ⟨hn, hi⟩ := (FValue.isFinite_iff _).1 h
  exact (if_neg (by simp [hn])).trans ((if_neg (by simp [hi])).trans (if_neg (by simp [hz])))

theorem Fmt.ofFormat_roundsTo (h : (G.value a).isFinite = true) (hz : (G.value a).isZero = false) :
    F.RoundsTo m (G.value a).toRat (F.ofFormat G m a) := by
  have hneg := Fmt.toRat_neg_iff h (Fmt.toRat_ne_zero h hz)
  rw [F.ofFormat_number m h hz]
  exact Fmt.roundsTo_of_exact m (Fmt.magnitude_pos h hz).1 (FValue.abs_toRat _).symm
    (by rw [Bool.eq_iff_iff, decide_eq_true_iff, hneg])

/-- To a wider format nothing is rounded. -/
theorem Fmt.ofFormat_wider (h : (G.value a).isFinite = true) (hw : G.width ≤ F.width) :
    (F.value (F.ofFormat G m a).1).isFinite = true ∧ (F.value (F.ofFormat G m a).1).toRat = (G.value a).toRat ∧
      (F.value (F.ofFormat G m a).1).neg = (G.value a).neg ∧ (F.ofFormat G m a).2 = flagNone := by
  cases hz : (G.value a).isZero with
  | true =>
    rw [F.ofFormat_zero m hz, F.value_of_zero, (Fmt.toRat_eq_zero_iff h).2 hz]
    exact ⟨rfl, rfl, rfl, rfl⟩
  | false =>
    obtain ⟨neg, k, e, hv⟩ := FValue.finite_cases h hz
    obtain ⟨hk, hp, hmin, hmax⟩ := Fmt.value_bounds hv
    obtain ⟨hfrac, hbias, hemin⟩ := Fmt.wider hw
    have hres : F.ofFormat G m a = F.round m neg k e := by
      rw [F.ofFormat_number m h hz]
      obtain hv | hv := hv <;> rw [hv] <;> rfl
    obtain ⟨hr, hfl⟩ := F.round_of_representable m neg hk (hp.trans_le (Nat.pow_le_pow_right two_pos (by omega)))
      (hemin.trans hmin) (hmax.trans (by exact_mod_cast hbias))
    have hg := Fmt.represents_value hv
    rw [hres]
    exact ⟨hr.finite, hr.number.trans hg.number.symm, hr.sign.trans hg.sign.symm, hfl⟩

end OfFormat

/-! ### The instructions -/

/-- A form of RV64 alone is one that only a 64-bit configuration has. -/
theorem is32_eq_false_of_present {c : Config} {i : Instr} {b : Bool} (hp : i.present c = (!c.is32 && b))
    (hw : i.wellFormed c = true) : c.is32 = false := by
  have h := Instr.present_of_wellFormed hw
  rw [hp, Bool.and_eq_true, Bool.not_eq_true'] at h
  exact h.1

/-- An instruction that writes an integer result in its rounding mode. -/
theorem exec_fpToInt {i : Instr} {s : State} {rm : BitVec 3} {m : Rounding} (hm : s.rounding rm = some m) {F : Fmt}
    {n : Nat} {sgn : Bool} {rd rs1 : Reg} (hlen : i.ilen = 4) (hexec : exec i s = fpToInt i F n sgn rd rs1 rm s)
    (hw : i.wellFormed s.cfg = true) :
    exec i s = .next ((s.afterX rd ((F.toInt m n sgn (s.readFp F rs1)).1.signExtend 64) 4).withFlags
      (F.toInt m n sgn (s.readFp F rs1)).2) := by
  rw [hexec, fpToInt, withRounding_of_some i s hw hm, intResult_eq, hlen]

/-- An instruction that converts the integer `v` of the low `n` bits of a register in its rounding mode. -/
theorem exec_fpOfInt {i : Instr} {s : State} {rm : BitVec 3} {m : Rounding} (hm : s.rounding rm = some m) {F : Fmt}
    {n : Nat} {sgn : Bool} {rd rs1 : Reg} (hlen : i.ilen = 4) (hexec : exec i s = fpOfInt i F n sgn rd rs1 rm s)
    {v : Int} (hv : (if sgn then ((s.readX rs1).setWidth n).toInt else (((s.readX rs1).setWidth n).toNat : Int)) = v)
    (hw : i.wellFormed s.cfg = true) :
    exec i s = .next ((s.afterF rd (box s.cfg F (F.ofInt m v).1) 4).withFlags (F.ofInt m v).2) := by
  rw [hexec, fpOfInt, withRounding_of_some i s hw hm, fpResult_eq, hlen, hv]

/-- Settles O51: the instructions are `fpToInt`, `fpOfInt` and `fpConvert` in their formats and widths. -/
theorem conversionResults : Obligations.ConversionResults := by
  refine ⟨?_, ?_, ?_, ?_⟩
  · intro s rd rs1 rm m hm toX ofX toF w wu l lu
    have int : ∀ {i : Instr} {F : Fmt} {n : Nat} {sgn : Bool}, i.ilen = 4 →
        exec i s = fpToInt i F n sgn rd rs1 rm s → toX i F n sgn := exec_fpToInt hm
    have ofW : ∀ {i : Instr} {F : Fmt}, i.ilen = 4 → exec i s = fpOfInt i F 32 true rd rs1 rm s → ofX i F w :=
      fun hlen hexec => exec_fpOfInt hm hlen hexec (intW_eq s rs1).symm
    have ofWu : ∀ {i : Instr} {F : Fmt}, i.ilen = 4 → exec i s = fpOfInt i F 32 false rd rs1 rm s → ofX i F wu :=
      fun hlen hexec => exec_fpOfInt hm hlen hexec (congrArg Nat.cast (natW_eq s rs1).symm)
    have ofL : ∀ {i : Instr} {F : Fmt} {b : Bool}, i.ilen = 4 → i.present s.cfg = (!s.cfg.is32 && b) →
        exec i s = fpOfInt i F 64 true rd rs1 rm s → ofX i F l := by
      intro i F b hlen hp hexec hw
      refine exec_fpOfInt hm hlen hexec ?_ hw
      rw [if_pos rfl, BitVec.setWidth_eq, ← intX_64 s (is32_eq_false_of_present hp hw)]
    have ofLu : ∀ {i : Instr} {F : Fmt} {b : Bool}, i.ilen = 4 → i.present s.cfg = (!s.cfg.is32 && b) →
        exec i s = fpOfInt i F 64 false rd rs1 rm s → ofX i F lu := by
      intro i F b hlen hp hexec hw
      refine exec_fpOfInt hm hlen hexec ?_ hw
      rw [if_neg Bool.false_ne_true, BitVec.setWidth_eq, ← natX_64 s (is32_eq_false_of_present hp hw)]
    have conv : ∀ {i : Instr} {F G : Fmt}, i.ilen = 4 → exec i s = fpConvert i F G rd rs1 rm s → toF i F G :=
      exec_fpRounded hm fun m => Fmt.ofFormat _ _ m (s.readFp _ rs1)
    clear_value toX ofX toF -- the lemmas above say all that is needed of them
    exact ⟨int rfl rfl, int rfl rfl, int rfl rfl, int rfl rfl, int rfl rfl, int rfl rfl, int rfl rfl, int rfl rfl,
      int rfl rfl, int rfl rfl, int rfl rfl, int rfl rfl, ofW rfl rfl, ofWu rfl rfl, ofL rfl rfl rfl, ofLu rfl rfl rfl,
      ofW rfl rfl, ofWu rfl rfl, ofL rfl rfl rfl, ofLu rfl rfl rfl, ofW rfl rfl, ofWu rfl rfl, ofL rfl rfl rfl,
      ofLu rfl rfl rfl, conv rfl rfl, conv rfl rfl, conv rfl rfl, conv rfl rfl, conv rfl rfl, conv rfl rfl⟩
  · intro F m a n sgn _ v lo hi
    have hlo := intLo_eq n sgn
    have hhi := intHi_eq n sgn
    change _ = lo at hlo
    change _ = hi at hhi
    rw [← hlo, ← hhi]
    exact ⟨Fmt.toInt_nan m n sgn, Fmt.toInt_infinite m n sgn, Fmt.toInt_of_finite m n sgn⟩
  · exact fun F m v => ⟨fun h => h ▸ F.ofInt_zero m, F.ofInt_roundsTo m⟩
  · exact fun F G m a => ⟨F.ofFormat_infinite m, F.ofFormat_zero m, F.ofFormat_roundsTo m, F.ofFormat_wider m⟩

end Sys2Proof.Machine
end

section
/-! PROOFS. NaN-boxing: what a register of FLEN bits gives when it is read in a format (47_d.md R451 to R453). -/

namespace Sys2Proof.Machine

variable {c : Config} {F : Fmt}

/-- The check for a box, bit by bit (R452). -/
theorem isBoxed_iff {v : FWord} :
    isBoxed c F v = true ↔ ∀ k < c.flen, F.width ≤ k → v.getLsbD k = true := by
  rw [isBoxed, beq_iff_eq]
  constructor
  · intro h k hk hF
    have hbit := congrArg (·.getLsbD (k - F.width)) h
    have hlt : k - F.width < c.flen - F.width := by omega
    simpa [hlt, Nat.add_sub_cancel' hF] using hbit
  · intro h
    refine BitVec.eq_of_getLsbD_eq fun i hi => ?_
    have hbit := h (F.width + i) (by omega) (by omega)
    simp [hi, hbit]

theorem isBoxed_eq_false_iff {v : FWord} :
    isBoxed c F v = false ↔ ∃ k < c.flen, F.width ≤ k ∧ v.getLsbD k = false := by
  rw [← Bool.not_eq_true, isBoxed_iff]
  push Not
  simp only [Bool.not_eq_true]

/-- Above the value a box holds ones up to FLEN (R451). -/
theorem isBoxed_box (v : BitVec F.width) : isBoxed c F (box c F v) = true := by
  refine isBoxed_iff.2 fun k hk hF => ?_
  have hk128 : k < 128 := lt_of_lt_of_le hk c.flen_le
  have hlt : k - F.width < c.flen - F.width := by omega
  simp [box, hk128, hlt, Nat.not_lt.2 hF]

/-- The low bits of a box are the value; the ones above it do not reach them (R451). -/
theorem setWidth_box (h : F.width ≤ c.flen) (v : BitVec F.width) : (box c F v).setWidth F.width = v := by
  refine BitVec.eq_of_getLsbD_eq fun k hk => ?_
  have hk128 : k < 128 := by have := c.flen_le; omega
  simp [box, hk, hk128]

theorem unbox_of_isBoxed {v : FWord} (h : isBoxed c F v = true) : unbox c F v = v.setWidth F.width := if_pos h

theorem unbox_of_not_isBoxed {v : FWord} (h : isBoxed c F v = false) : unbox c F v = F.cNaN :=
  if_neg (Bool.eq_false_iff.1 h)

theorem unbox_box (h : F.width ≤ c.flen) (v : BitVec F.width) : unbox c F (box c F v) = v := by
  rw [unbox_of_isBoxed (isBoxed_box v), setWidth_box h]

theorem State.readF_writeFp_same (s : State) (F : Fmt) (r : Reg) (v : BitVec F.width) :
    (s.writeFp F r v).readF r = box s.cfg F v := by
  rw [State.writeFp, State.readF_writeF, if_pos rfl]

theorem State.readFp_writeFp_same (s : State) (h : F.width ≤ s.cfg.flen) (r : Reg) (v : BitVec F.width) :
    (s.writeFp F r v).readFp F r = v := by
  rw [State.readFp, State.readF_writeFp_same, State.writeFp_cfg, unbox_box h]

theorem State.rawFp_writeFp_same (s : State) (h : F.width ≤ s.cfg.flen) (r : Reg) (v : BitVec F.width) :
    (s.writeFp F r v).rawFp F r = v := by
  rw [State.rawFp, State.readF_writeFp_same, setWidth_box h]

/-- Settles O55: a box reads back whole, and a read in any format turns on the check of the bits above it. -/
theorem boxedValuesReadBack : Obligations.BoxedValuesReadBack := by
  intro s F G rd v hF _
  refine ⟨s.readFp_writeFp_same hF rd v, s.rawFp_writeFp_same hF rd v, ?_, ?_⟩
  · exact fun hones => unbox_of_isBoxed (isBoxed_iff.2 hones)
  · exact fun hzero => unbox_of_not_isBoxed (isBoxed_eq_false_iff.2 hzero)

end Sys2Proof.Machine
end

section
/-! PROOFS. Reset, and words of the spec that decode to their instructions (70_reset_and_hazards.md R641, R643, R646;
95_test_vectors.md). -/

namespace Sys2Proof.Machine

/-- Settles O1, clause by clause; that the configuration is legal and RESET_PC fetchable is a closed fact. -/
theorem resetIsLaunchable : Obligations.ResetIsLaunchable :=
  ⟨rfl, rfl, rfl, State.reset.readX_zero, rfl, by decide⟩

/-- Settles O7: each word is the code of its instruction, which the reset configuration has. -/
theorem specWordsDecode : Obligations.SpecWordsDecode := by
  have decodes : ∀ {k : Code} {i : Instr}, encode i = k → i.wellFormed Config.reset = true →
      decode Config.reset k = .ok i := by
    rintro _ i rfl hw
    exact decodeInvertsEncode Config.reset i hw
  refine ⟨decodes ?_ ?_, decodes ?_ ?_, decodes ?_ ?_, decodes ?_ ?_, decodes ?_ ?_, decodes ?_ ?_, decodes ?_ ?_⟩ <;>
    decide

end Sys2Proof.Machine
end

section
/-! PROOFS. What an instruction does to the hart's status and to `instret`: it traps and changes nothing else, or it
retires once (60_exceptions.md R605 to R607, R609; 10_state.md R41). -/

namespace Sys2Proof.Machine

/-! ### The status and `instret` under the updates of the state -/

section Updates

variable (s : State)

@[simp] theorem State.memRead_status_instret (ea : Word) (n : Nat) (w : Bool) :
    (s.memRead ea n w).2.status = s.status ∧ (s.memRead ea n w).2.instret = s.instret := by
  obtain ⟨_, h⟩ := s.memRead_eq ea n w
  rw [h]; exact ⟨rfl, rfl⟩

@[simp] theorem State.memWrite_status_instret (ea : Word) (n : Nat) (v : BitVec (8 * n)) (w : Bool) :
    (s.memWrite ea n v w).status = s.status ∧ (s.memWrite ea n v w).instret = s.instret := by
  obtain ⟨_, _, _, _, h⟩ := s.memWrite_eq ea n v w
  rw [h]; exact ⟨rfl, rfl⟩

@[simp] theorem State.scMayFail_status_instret (ea : Word) (n : Nat) :
    (s.scMayFail ea n).2.status = s.status ∧ (s.scMayFail ea n).2.instret = s.instret := by
  rw [State.scMayFail_snd]; exact ⟨rfl, rfl⟩

@[simp] theorem State.csrRead_status_instret (r : Csr) :
    (s.csrRead r).2.status = s.status ∧ (s.csrRead r).2.instret = s.instret := by
  rw [State.csrRead_snd]; exact ⟨rfl, rfl⟩

@[simp] theorem State.csrWrite_status_instret (r : Csr) (v : Word) :
    (s.csrWrite r v).status = s.status ∧ (s.csrWrite r v).instret = s.instret := by
  rw [State.csrWrite_eq]; exact ⟨rfl, rfl⟩

end Updates

/-! ### Trapping and retiring -/

/-- The result is a next state: the trap of the instruction itself, of its own length, or one that has left the status
and counted the instruction once. -/
def TrapsOrRetires (i : Instr) (s : State) (o : Result) : Prop :=
  ∃ t, o = .next t ∧
    ((∃ cause tval, t = s.trap cause tval i.ilen) ∨ (t.status = s.status ∧ t.instret = s.instret + 1))

section Shapes

variable {i : Instr} {s t : State}

theorem trapsOrRetires_raise (cause : Cause) (tval : Word) : TrapsOrRetires i s (raise cause tval i.ilen s) :=
  ⟨_, rfl, .inl ⟨cause, tval, rfl⟩⟩

theorem trapsOrRetires_retireTo (target : Word) (hs : t.status = s.status) (hn : t.instret = s.instret) :
    TrapsOrRetires i s (.next (t.retireTo target)) :=
  ⟨_, rfl, .inr ⟨hs, congrArg (· + 1) hn⟩⟩

theorem trapsOrRetires_retire (hs : t.status = s.status := by simp) (hn : t.instret = s.instret := by simp) :
    TrapsOrRetires i s (retire i t) := trapsOrRetires_retireTo _ hs hn

theorem trapsOrRetires_legal {o : Result} (h : TrapsOrRetires i s o) : TrapsOrRetires i s (legal i s o) := by
  unfold legal
  split
  · exact h
  · exact trapsOrRetires_raise _ _

theorem trapsOrRetires_withRounding {rm : BitVec 3} {body : Rounding → Result}
    (h : ∀ m, TrapsOrRetires i s (body m)) : TrapsOrRetires i s (withRounding i rm s body) := by
  refine trapsOrRetires_legal ?_
  split
  · exact trapsOrRetires_raise _ _
  · exact h _

theorem trapsOrRetires_jump (target : Word) (hs : t.status = s.status := by simp)
    (hn : t.instret = s.instret := by simp) : TrapsOrRetires i s (jump i target s t) := by
  unfold jump
  split
  · exact trapsOrRetires_retireTo _ hs hn
  · exact trapsOrRetires_raise _ _

theorem trapsOrRetires_branch (test : (w : Nat) → BitVec w → BitVec w → Bool) (rs1 rs2 : Reg) (target : Word) :
    TrapsOrRetires i s (branch i test rs1 rs2 target s) := by
  refine trapsOrRetires_legal ?_
  split
  · exact trapsOrRetires_jump target
  · exact trapsOrRetires_retire

theorem trapsOrRetires_load {n : Nat} {ea : Word} {put : BitVec (8 * n) → State → State}
    (hput : ∀ v u, (put v u).status = u.status ∧ (put v u).instret = u.instret) :
    TrapsOrRetires i s (load i n ea put s) := by
  unfold load
  split
  · exact trapsOrRetires_raise _ _
  · exact trapsOrRetires_retire (by simp [hput]) (by simp [hput])

theorem trapsOrRetires_store (n : Nat) (ea : Word) (v : BitVec (8 * n)) :
    TrapsOrRetires i s (store i n ea v s) := by
  unfold store
  split
  · exact trapsOrRetires_raise _ _
  · exact trapsOrRetires_retire

theorem trapsOrRetires_loadReserved (n : Nat) (rd rs1 : Reg) : TrapsOrRetires i s (loadReserved i n rd rs1 s) := by
  unfold loadReserved
  simp only
  split
  · exact trapsOrRetires_raise _ _
  · exact trapsOrRetires_retire

theorem trapsOrRetires_storeConditional (n : Nat) (rd rs1 rs2 : Reg) :
    TrapsOrRetires i s (storeConditional i n rd rs1 rs2 s) := by
  unfold storeConditional
  simp only
  split
  · exact trapsOrRetires_raise _ _
  · split <;> exact trapsOrRetires_retire

theorem trapsOrRetires_amo (n : Nat) (op : BitVec (8 * n) → BitVec (8 * n) → BitVec (8 * n)) (rd rs1 rs2 : Reg) :
    TrapsOrRetires i s (amo i n op rd rs1 rs2 s) := by
  unfold amo
  simp only
  split
  · exact trapsOrRetires_raise _ _
  · exact trapsOrRetires_retire

theorem trapsOrRetires_csrOp (rd : Reg) (csr : BitVec 12) (reads writes : Bool) (src : Word)
    (f : Word → Word → Word) : TrapsOrRetires i s (csrOp i rd csr reads writes src f s) := by
  unfold csrOp
  split
  · exact trapsOrRetires_raise _ _
  · split
    · exact trapsOrRetires_raise _ _
    · cases reads <;> cases writes <;> exact trapsOrRetires_retire

/-- Every shape of a footprint that is not empty traps with its own length or retires. What the footprint excludes is
the shape of the environment calls, which does not say what length it records. -/
theorem Shape.trapsOrRetires {p : Footprint} {o : Result} (h : Shape i s p o) (hp : p ≠ {}) :
    TrapsOrRetires i s o := by
  cases h with
  | illegal => exact trapsOrRetires_raise _ _
  | raise => exact absurd rfl hp
  | branch test rs1 rs2 target => exact trapsOrRetires_branch test rs1 rs2 target
  | jumpLink | jumpLink_x0 => exact trapsOrRetires_legal (trapsOrRetires_jump _)
  | loadX | fpLoad => exact trapsOrRetires_legal (trapsOrRetires_load fun _ _ => by simp)
  | storeX | fpStore => exact trapsOrRetires_legal (trapsOrRetires_store _ _ _)
  | loadReserved => exact trapsOrRetires_legal (trapsOrRetires_loadReserved _ _ _)
  | storeConditional => exact trapsOrRetires_legal (trapsOrRetires_storeConditional _ _ _ _)
  | amo => exact trapsOrRetires_legal (trapsOrRetires_amo _ _ _ _ _)
  | csr => exact trapsOrRetires_legal (trapsOrRetires_csrOp _ _ _ _ _ _)
  | fpRounded | intRounded => exact trapsOrRetires_withRounding fun _ => trapsOrRetires_retire
  | _ => exact trapsOrRetires_legal trapsOrRetires_retire -- what is left retires without a check of its own

end Shapes

/-- Every instruction traps with its own length or retires once. -/
theorem exec_trapsOrRetires (i : Instr) (s : State) : TrapsOrRetires i s (exec i s) := by
  cases i with
  | ecall | ebreak | cEbreak => exact trapsOrRetires_legal (trapsOrRetires_raise _ _)
  | illegalAllZero | cLq | cSq | cLqsp | cSqsp => exact trapsOrRetires_raise _ _
  | fence | fenceTso | pause | cNop | cSlli64 | cSrli64 | cSrai64 => exact trapsOrRetires_legal trapsOrRetires_retire
  | beq | bne | blt | bge | bltu | bgeu | cBeqz | cBnez => exact trapsOrRetires_branch _ _ _ _
  | cJ | cJr => exact trapsOrRetires_legal (trapsOrRetires_jump _)
  | _ => exact (exec_shape _ s).trapsOrRetires nofun -- what is left has a footprint

/-- Settles O11: a trap is a next state, and so is what an instruction retires to. -/
theorem everyInstructionAnswersNext : Obligations.EveryInstructionAnswersNext := by
  intro i s
  obtain ⟨t, h, -⟩ := exec_trapsOrRetires i s
  exact ⟨t, h⟩

/-- Settles O12: from a running hart the instruction that retires leaves it running. -/
theorem raisingInstructionChangesNothing : Obligations.RaisingInstructionChangesNothing := by
  intro i s t hr h
  obtain ⟨_, ht, hcases⟩ := exec_trapsOrRetires i s
  cases h.symm.trans ht
  rwa [hr] at hcases

/-- Settles O15: the environment calls are in every configuration, C.EBREAK in those with C, and the other rows are
illegal whatever the configuration is. -/
theorem exceptionInstructionsTrap : Obligations.ExceptionInstructionsTrap := by
  intro s rd rs2 r1 r2 o5 o6
  refine ⟨?ecall, ?ebreak, ?cEbreak, illegal_eq _ s, illegal_eq _ s, illegal_eq _ s, illegal_eq _ s, illegal_eq _ s⟩
  case ecall | ebreak => exact legal_of_wf _ s (wellFormed_of_no_xregs rfl rfl rfl) _
  case cEbreak => exact fun hc => legal_of_wf _ s (wellFormed_of_no_xregs (i := .cEbreak) hc rfl rfl) _

end Sys2Proof.Machine
end

section
/-! PROOFS. What a Trapped hart does: it halts or resumes, and what a service of the environment sets (60_exceptions.md
R605, R607, R614; 44_a.md R336). -/

namespace Sys2Proof.Machine

/-! ### A step of a trapped hart -/

/-- Resuming from `t`, which has the configuration of `s`, is refused exactly where the target is misaligned (R607). -/
theorem resumeAt_eq {s t : State} (hc : t.cfg = s.cfg) (target : Word) :
    resumeAt target t = if s.cfg.aligned target = true then
      .next { t with pc := target, status := .running, loop := none } else .refused .misalignedResume := by
  rw [← hc]; rfl

section Trapped

variable {s : State} {r : TrapRecord} (hs : s.status = .trapped r)

include hs

theorem step_of_halt (h : trapPolicy s.cfg r.cause = none) : step s = .next s := by
  simp only [step, hs, stepTrapped, h]

theorem step_of_resume {f : Resume} (h : trapPolicy s.cfg r.cause = some f) : step s = resume f r s := by
  simp only [step, hs, stepTrapped, h]

end Trapped

/-! ### What a service sets (R605, R614) -/

section Service

variable (s : State) (e : ServiceEffect)

theorem State.readX_serve (r : Reg) :
    (s.serve e).readX r = if r = 0#5 then 0#64 else s.cfg.truncate e.x[r.toNat] := by
  simp [State.readX, State.serve_eq]

theorem State.readF_serve (r : Reg) : (s.serve e).readF r = (e.f[r.toNat].setWidth s.cfg.flen).setWidth 128 := by
  simp [State.readF, State.serve_eq]

theorem State.serve_memory : (s.serve e).memory = (s.writeCells (e.cells s.cfg)).memory := by rw [State.serve_eq]

theorem State.serve_stale : (s.serve e).stale = (s.writeCells (e.cells s.cfg)).stale := by rw [State.serve_eq]

theorem State.serve_reservation : (s.serve e).reservation = s.servedReservation e := by rw [State.serve_eq]

/-- The last byte that a service writes to an address decides what it reads. -/
theorem State.read_serve (a : Nat) :
    Memory.read (s.serve e).memory a =
      ((e.writes.reverse.find? fun w => w.1 % 2 ^ s.cfg.xlen == a).map fun w => w.2).getD (Memory.read s.memory a) := by
  rw [State.serve_memory, State.read_writeCells, ServiceEffect.cells, ← List.map_reverse, List.find?_map,
    Option.map_map]
  rfl

/-- The service writes a byte that the LR of a reservation read (44_a.md R336). -/
theorem any_reads_iff (v : Reservation) :
    (e.writes.any fun w => v.reads s.cfg w.1) = true ↔
      ∃ w ∈ e.writes, ∃ k < v.byteCount, w.1 % 2 ^ s.cfg.xlen = (v.byteBase + k) % 2 ^ s.cfg.xlen := by
  simp only [List.any_eq_true, Reservation.reads, Span.holds_iff]

end Service

/-- A reservation that a service leaves is lost exactly where it writes a byte that the LR read. -/
theorem State.servedReservation_keep {s : State} {e : ServiceEffect} (h : e.reservation = .keep) {v : Reservation}
    (hv : s.reservation = some v) :
    s.servedReservation e = if (e.writes.any fun w => v.reads s.cfg w.1) = true then none else some v := by
  simp only [State.servedReservation, h, hv, Option.filter_some]
  cases e.writes.any fun w => v.reads s.cfg w.1 <;> rfl

/-- Settles O16: what the policy says is what a step does, and what a service sets is read off its next state. -/
theorem trappedHartHaltsOrResumes : Obligations.TrappedHartHaltsOrResumes := by
  refine ⟨fun s r hs => ⟨step_of_halt hs, fun h => ?skip, fun h => ?retry, fun h => ?service⟩, fun s e => ?_⟩
  case skip | retry => rw [step_of_resume hs h]; exact resumeAt_eq rfl _
  case service => rw [step_of_resume hs h]; exact resumeAt_eq (s.serve_cfg _) _
  have hset := s.serve_eq e
  have hres := s.serve_reservation e
  refine ⟨s.readX_serve e, s.readF_serve e, by rw [hset], by rw [hset], by rw [hset], by rw [hset], by rw [hset],
    s.read_serve e, fun c hc => ?kept, fun a ha => ?replaced, fun hc => ?clear, fun b extra hr => ?register,
    fun hk hn => ?none, fun v hk hv => ?some, by rw [hset]⟩
  case kept => rw [State.serve_stale]; exact s.stale_writeCells _ hc
  case replaced =>
    rw [State.serve_memory] at ha
    rw [State.serve_stale]
    exact s.stale_of_changed _ ha
  case clear => rw [hres, State.servedReservation, hc]
  case register => rw [hres, State.servedReservation, hr]; rfl
  case none => rw [hres, State.servedReservation, hk, hn]; rfl
  case some =>
    rw [hres, State.servedReservation_keep hk hv, ← any_reads_iff]
    exact ⟨fun hit => if_pos hit, fun miss => if_neg miss⟩

end Sys2Proof.Machine
end

section
/-! PROOFS. The computations of C as exact integer results (49_c.md R532, R534, R536, R540, R549 to R564, R568, R574,
R577). Each is the shape of its expansion, 2 bytes long. -/

namespace Sys2Proof.Machine

/-! ### The immediates of C (49_c.md R538) -/

/-- An unsigned immediate of C.ADDI4SPN, in units of 4. -/
theorem lowBits_scaled_two (c : Config) (imm : BitVec 8) :
    c.lowBits (scaled 2 imm) = .ofInt c.xlen (4 * imm.toNat) := by
  obtain ⟨-, -, hv⟩ := scaled_values 2 imm (by decide)
  rw [c.lowBits_eq_ofInt_toNat, hv, Nat.cast_mul, mul_comm]
  rfl

/-- A signed immediate above `k` zeros, as C.ADDI16SP and C.LUI take it. -/
theorem lowBits_sext_append (c : Config) {n : Nat} (imm : BitVec n) (k : Nat) :
    c.lowBits (c.sext (imm ++ 0#k)) = .ofInt c.xlen (imm.toInt * 2 ^ k) := by
  rw [c.lowBits_sext, toInt_append_zeros]

/-- A shift amount that the encoding admits lies below XLEN (R533). -/
theorem toNat_shamt_mod_of_wellFormed {i : Instr} {c : Config} {sh : BitVec 6}
    (hf : i.fieldsLegal c = (sh != 0#6 && shamtFits c sh)) (hw : i.wellFormed c = true) :
    (c.lowBits (zext sh)).toNat % c.xlen = sh.toNat := by
  have hl := Instr.fieldsLegal_of_wellFormed hw
  rw [hf, Bool.and_eq_true] at hl
  exact toNat_shamt_mod hl.2

/-! ### Additions, and x0 as an operand and as a destination -/

theorem aluAdd_of_ofInt {w : Nat} {a b : BitVec w} {k : Int} (h : b = .ofInt w k) :
    aluAdd w a b = .ofInt w (a.toInt + k) := by
  rw [h, aluAdd, BitVec.ofInt_add, BitVec.ofInt_toInt]

/-- C.LI and C.MV expand to additions to x0. -/
theorem aluAdd_x0 (s : State) {b : BitVec s.cfg.xlen} {k : Int} (h : b = .ofInt s.cfg.xlen k) :
    aluAdd s.cfg.xlen (s.cfg.lowBits (s.readX 0#5)) b = .ofInt s.cfg.xlen k := by
  have hz : s.cfg.lowBits (s.readX 0#5) = 0#s.cfg.xlen := by simp [Config.lowBits]
  rw [hz, aluAdd, BitVec.zero_add, h]

/-- A write to x0 leaves only the advance of `pc`. -/
theorem State.afterX_x0 (s : State) (v : Word) (len : Nat) : s.afterX 0#5 v len = s.afterPc (s.pcAfter len) := rfl

/-! ### The statement -/

/-- Settles O24: each result is the exact integer result of the expansion, and the shifts by nothing only advance
`pc`. -/
theorem compressedComputationResults : Obligations.CompressedComputationResults := by
  intro s rd rs2 p q imm w
  simp only [State.intX_eq, State.natX_eq, intW_eq]
  have hk := s.cfg.lowBits_sext imm
  have hkW := toInt_sext_32 s.cfg (by decide) imm
  refine ⟨?cAddi4spn, ?cNop, ?cAddi, ?cAddiw, ?cLi, ?cAddi16sp, ?cLui, ?cSrli, ?cSrai, ?cAndi, ?cSub, ?cXor, ?cOr,
    ?cAnd, ?cSubw, ?cAddw, ?cSlli, ?cMv, ?cAdd, ?cSlli64, ?cSrli64, ?cSrai64⟩ <;> intro hw
  case cAddi4spn => exact opImm_of_ofInt hw (aluAdd_of_ofInt (lowBits_scaled_two _ w))
  case cNop => exact (setReg_of_wf _ s hw 0#5 _).trans (congrArg _ (s.afterX_x0 _ _))
  case cAddi => exact opImm_of_ofInt hw (aluAdd_of_ofInt hk)
  case cAddiw => rw [← hkW]; exact opImmW_of_ofInt hw (aluAdd_ofInt _ _)
  case cLi => exact opImm_of_ofInt hw (aluAdd_x0 s hk)
  case cAddi16sp =>
    rw [mul_comm]
    exact opImm_of_ofInt hw (aluAdd_of_ofInt (lowBits_sext_append _ imm 4))
  case cLui => exact setReg_of_ofInt hw (lowBits_sext_append _ imm 12)
  case cSrli => rw [← toNat_shamt_mod_of_wellFormed rfl hw]; exact opImm_of_ofInt hw (aluSrl_ofInt _ _)
  case cSrai => rw [← toNat_shamt_mod_of_wellFormed rfl hw]; exact opImm_of_ofInt hw (aluSra_ofInt _ _)
  case cAndi =>
    refine opImm_of_lowBits hw ?_
    rw [Config.sext, Config.lowBits_truncate]
    exact BitVec.setWidth_and.symm
  case cSub => exact opImm_of_ofInt hw (aluSub_ofInt _ _)
  case cXor => exact opImm_of_lowBits hw BitVec.setWidth_xor.symm
  case cOr => exact opImm_of_lowBits hw BitVec.setWidth_or.symm
  case cAnd => exact opImm_of_lowBits hw BitVec.setWidth_and.symm
  case cSubw => exact opImmW_of_ofInt hw (aluSub_ofInt _ _)
  case cAddw => exact opImmW_of_ofInt hw (aluAdd_ofInt _ _)
  case cSlli => rw [← toNat_shamt_mod_of_wellFormed rfl hw]; exact opImm_of_ofInt hw (aluSll_ofInt _ _)
  case cMv => exact opImm_of_ofInt hw (aluAdd_x0 s (BitVec.ofInt_toInt ..).symm)
  case cAdd => exact opImm_of_ofInt hw (aluAdd_ofInt _ _)
  case cSlli64 | cSrli64 | cSrai64 => exact noEffect_of_wf _ s hw

end Sys2Proof.Machine
end
